-- ==== Sys2Proof/Word.lean ====
section
/-!
DEFINITION. The word types of the machine (spec/00_scope.md rules R9 and R12): 32-bit words, 16-bit halfwords and
8-bit bytes, each a bit vector, since the spec adds, shifts and masks them.
-/

namespace Sys2Proof

/-- A 32-bit word: a register, an address, a word of memory (R9, R12). -/
abbrev Word := BitVec 32

/-- A 16-bit halfword: a Thumb instruction, an I/O register (R9). -/
abbrev Half := BitVec 16

/-- An 8-bit byte, the smallest addressable unit (R81). -/
abbrev Byte := BitVec 8

end Sys2Proof
end

