-- ==== Sys2Proof/Config.lean ====
section
/-!
DEFINITION. What is fixed for one machine and what the spec leaves open: the model parameters of
spec/00_scope.md rule R10, and the free values (the draws of rule R18), which are constants with no body, so that
nothing can be proved of the value they give.
-/

namespace Sys2Proof

/-- `UNPRED_MODE` (R10, R20): how an UNPREDICTABLE case ends. -/
inductive UnpredMode where
  /-- Every UNPREDICTABLE case and every hazard is a model fault. -/
  | strict
  /-- The behaviour the rule writes beside the case is performed; a case with none is a model fault. -/
  | arm7tdmi
  deriving DecidableEq, Repr

/-- `CP_MODE` (R10, R360): what a coprocessor instruction does. -/
inductive CpMode where
  /-- It only advances the pc. -/
  | nop
  /-- It raises Undefined. -/
  | undefined
  deriving DecidableEq, Repr

/-- The regions of the memory map (R88). -/
inductive Region where
  | bios | ewram | iwram | io | palette | vram | oam | rom | save | unmapped
  deriving DecidableEq, Repr

/-- One row of a memory map: an address range and the region it reaches. -/
structure MapRow where
  /-- The lowest address of the range. -/
  first : Nat
  /-- The highest address of the range. -/
  last : Nat
  region : Region
  /-- The offset into the region that `first` reaches. -/
  start : Nat
  deriving DecidableEq, Repr

/-- `BUS` (R10, R88, D18): the whole map, the first row that holds an address deciding; an address of no row is unmapped.
A row of the I/O region says which register, with its side effects, an address reaches.  Log entry 35. -/
abbrev Bus := List MapRow

/-- The model parameters of R10.  `State` carries them as plain data and no step writes them.  The bytes of `BIOS_IMAGE`
and `ROM_IMAGE` are bytes of `State.mem`; what is said of the images here is set from them by `State.resetWith`. -/
structure Params where
  /-- `UNPRED_MODE`. -/
  unpred : UnpredMode
  /-- `CP_MODE`. -/
  cp : CpMode
  /-- `DIRECT_BOOT`: reset gives the state of R603 instead of that of R62. -/
  directBoot : Bool
  /-- `BUS`. -/
  bus : Bus
  /-- `FIQ_LINE`: the nFIQ input, the same at every poll, or `none`, a free value per step (R521, D13). -/
  fiqLine : Option Bool
  /-- `CYCLE_COST`: the same cost for every iteration, or `none`, left OPEN: a free value per iteration (R620). -/
  cycleCost : Option Nat
  /-- `INPUT`: the mask `write_input` last supplied, or `none`, a draw per iteration (R565, D30). -/
  input : Option (BitVec 10)
  /-- The host supplied `BIOS_IMAGE`; without it a read of the BIOS region is a draw (R603). -/
  biosImage : Bool
  /-- The length of `ROM_IMAGE` in bytes: a ROM read at or past it is open bus (R86, R88). -/
  romSize : Nat
  deriving DecidableEq, Repr

/-- The `k`-th free byte: what an open-bus or save-memory read, or a read of an absent BIOS, returns (R86, R91, R92,
R603). Log entry 7. -/
opaque Config.freeByte : Nat → Byte

/-- The `k`-th free bit: C, and V of the long forms, after a multiply that sets the flags (R260-R265, R425).
Log entry 8. -/
opaque Config.freeBit : Nat → Bool

/-- The cycles of scheduler iteration `k` when `CYCLE_COST` is OPEN (R620, D16). Log entry 9. -/
opaque Config.cycleCost : Nat → Nat

/-- The button mask of scheduler iteration `k` when `INPUT` is a draw (R565, D30). Log entry 10. -/
opaque Config.input : Nat → BitVec 10

/-- The nFIQ input at the poll of scheduler iteration `k` when `FIQ_LINE` is left free (R521, D13). Log entry 11. -/
opaque Config.fiqLine : Nat → Bool

end Sys2Proof
end

