-- ==== Sys2Proof/Machine/Map.lean ====
section
/-!
DEFINITION. The default memory map (spec/20_memory.md rule R88), the default parameters (spec/00_scope.md rule R10), and
the memory that BIOS_IMAGE and ROM_IMAGE give.
-/

namespace Sys2Proof

/-- The default `BUS`: the table of R88.  An address of no row is unmapped. -/
def Bus.gba : Bus :=
  [⟨0x00000000, 0x00003FFF, .bios, 0⟩,
   ⟨0x02000000, 0x02FFFFFF, .ewram, 0⟩,
   ⟨0x03000000, 0x03FFFFFF, .iwram, 0⟩,
   ⟨0x04000000, 0x040003FF, .io, 0⟩,
   ⟨0x05000000, 0x05FFFFFF, .palette, 0⟩,
   ⟨0x06000000, 0x06FFFFFF, .vram, 0⟩,
   ⟨0x07000000, 0x07FFFFFF, .oam, 0⟩,
   ⟨0x08000000, 0x09FFFFFF, .rom, 0⟩,
   ⟨0x0A000000, 0x0BFFFFFF, .rom, 0⟩,
   ⟨0x0C000000, 0x0DFFFFFF, .rom, 0⟩,
   ⟨0x0E000000, 0x0FFFFFFF, .save, 0⟩]

/-- The defaults of R10; `BIOS_IMAGE` and `ROM_IMAGE` have none: the host supplies them. -/
def Params.default : Params where
  unpred := .strict
  cp := .nop
  directBoot := false
  bus := Bus.gba
  fiqLine := some false
  cycleCost := none
  input := none
  biosImage := false
  romSize := 0

namespace Machine

/-- Memory as (address, byte) pairs: addresses strictly rising and no entry equal to what an unlisted address reads as.
It holds the RAM regions, `BIOS_IMAGE`, `ROM_IMAGE` and the plain-storage I/O registers (R88, R580), each byte at its
address in the default map, the lowest where that map mirrors it. -/
abbrev Memory := List Host.Cell

/-- What an unlisted byte reads as: 00, for RAM at reset (R89, R602) and for bytes of a placed image that nobody gave.
DESIGN CHOICE, log entry 3. -/
def Memory.unlisted : Byte := 0

/-- The entries of an image from an address on. -/
def imageCells (a : Nat) (bytes : List Byte) : Memory :=
  match bytes with
  | [] => []
  | b :: rest => if b = Memory.unlisted then imageCells (a + 1) rest else (a, b) :: imageCells (a + 1) rest

/-- The memory right after reset: the images, and nothing listed in RAM (R600, R602).  `ROM_IMAGE` is up to 32 MB
(R88). -/
def imagesMemory (bios : Option (Vector Byte 0x4000)) (rom : List Byte) : Memory :=
  (match bios with
    | some image => imageCells 0 image.toList
    | none => []) ++ imageCells 0x08000000 (rom.take 0x2000000)

end Machine

end Sys2Proof
end

