-- ==== Sys2Proof/Machine/State.lean ====
section
/-!
DEFINITION. The state of the machine as plain data: the CPU's registers (spec/10_state.md), memory
(spec/20_memory.md), the platform devices (spec/60_exceptions.md), the model parameters (spec/00_scope.md rule R10),
the ways a step can stop, and the state after reset (spec/70_reset_and_hazards.md rules R600, R603).
-/

namespace Sys2Proof.Machine

/-- The seven processor modes (R32). -/
inductive Mode where
  | usr | fiq | irq | svc | abt | und | sys
  deriving DecidableEq, Repr

/-- The current program status register (R50).  Bits 27:8 read as 0 and are not stored (R55); `M` always holds a mode
of R32, since writing any other value is UNPREDICTABLE with no effect given (R54). -/
structure Cpsr where
  n : Bool
  z : Bool
  c : Bool
  v : Bool
  /-- `I`, bit 7: IRQ disabled. -/
  i : Bool
  /-- `F`, bit 6: FIQ disabled. -/
  f : Bool
  /-- `T`, bit 5: Thumb state. -/
  t : Bool
  mode : Mode
  deriving DecidableEq, Repr

/-- A saved program status register (R56): the layout of R50 with any value of `M`, since MSR writes an SPSR freely. -/
structure Psr where
  n : Bool
  z : Bool
  c : Bool
  v : Bool
  i : Bool
  f : Bool
  t : Bool
  m : BitVec 5
  deriving DecidableEq, Repr

/-- One timer (R535, R536). -/
structure Timer where
  counter : BitVec 16
  reload : BitVec 16
  /-- `TMnCNT_H` bits 1:0. -/
  prescaler : BitVec 2
  /-- `TMnCNT_H` bit 2, count-up. -/
  cascade : Bool
  /-- `TMnCNT_H` bit 6. -/
  irq : Bool
  /-- `TMnCNT_H` bit 7. -/
  enable : Bool
  /-- The hidden prescaler count: cycles since the last tick (R536). -/
  count : Nat
  deriving DecidableEq, Repr

/-- One DMA channel (R540, R541).  It is armed exactly when `ctl` bit 15 is 1. -/
structure DmaChannel where
  sad : Word
  dad : Word
  cntL : BitVec 16
  /-- `DMAnCNT_H`, its unused bits 0. -/
  ctl : BitVec 16
  /-- The latched source address. -/
  src : Word
  /-- The latched destination address. -/
  dst : Word
  /-- The latched unit count. -/
  cnt : Nat
  /-- The channel runs in the next DMA advance (R542). -/
  due : Bool
  deriving DecidableEq, Repr

/-- The PPU's counters (R552). -/
structure Ppu where
  line : Fin 228
  dot : Fin 308
  /-- The hidden remainder of cycles, four to a dot. -/
  sub : Fin 4
  deriving DecidableEq, Repr

/-- The writable bits of `DISPSTAT` (R550); bits 2:0 are computed from the counters. -/
structure DispStat where
  vblankIrq : Bool
  hblankIrq : Bool
  vcountIrq : Bool
  lyc : BitVec 8
  deriving DecidableEq, Repr

/-- One PCM FIFO (R560, R562). -/
structure Fifo where
  /-- The queued bytes, oldest first. -/
  bytes : List Byte
  /-- Drains signalled by timer overflows and not yet carried out by the APU advance (R536, R562). -/
  drains : Nat
  deriving DecidableEq, Repr

/-- `KEYCNT` (R565). -/
structure KeyCnt where
  select : BitVec 10
  irq : Bool
  /-- Bit 15: all selected buttons, not any. -/
  all : Bool
  deriving DecidableEq, Repr

/-- The platform devices the CPU sees (spec/60_exceptions.md). -/
structure Devices where
  /-- `IE` bits 13:0 (R523). -/
  ie : BitVec 14
  /-- `IF` bits 13:0 (R524). -/
  iflags : BitVec 14
  /-- `IME` bit 0 (R525). -/
  ime : Bool
  /-- The halt state (R570). -/
  halted : Bool
  timers : Vector Timer 4
  dma : Vector DmaChannel 4
  ppu : Ppu
  dispstat : DispStat
  fifoA : Fifo
  fifoB : Fifo
  keycnt : KeyCnt
  deriving DecidableEq, Repr

/-- The whole machine.  `draws`, `iteration` and `dmaResume` are the MODEL's own fields (log entries 12 and 13); all
others are the spec's. -/
structure State where
  /-- The 30 registers below R15, in the order of R30: R0-R14, R8_fiq-R14_fiq, then R13 and R14 of irq, svc, abt, und. -/
  gpr : Vector Word 30
  /-- R15: the address of the next instruction to fetch, and of the current one while it executes (R40). -/
  pc : Word
  cpsr : Cpsr
  /-- SPSR_fiq, SPSR_irq, SPSR_svc, SPSR_abt, SPSR_und, in that order (R56). -/
  spsr : Vector Psr 5
  /-- `last_usr_bank` (R611). -/
  lastUsrBank : Bool
  mem : Memory
  dev : Devices
  params : Params
  /-- How many free values have been taken. -/
  draws : Nat
  /-- How many scheduler iterations have ended. -/
  iteration : Nat
  /-- The cycles of an iteration whose DMA advance is not finished; no instruction runs until it is. -/
  dmaResume : Option Nat
  deriving DecidableEq, Repr

/-- The UNPREDICTABLE cases of spec/93_implementation_defined.md section 1, by the spec's names.  A case that gives an
`arm7tdmi` behaviour stops only a `strict` machine (R20); stopping where the hardware goes on is safe. -/
inductive Unpredictable where
  /-- `sbz-sbo` (R21): a matched word has an SBZ bit 1 or an SBO bit 0.  Raised only in strict mode; safe. -/
  | sbzSbo
  /-- `bad-mode` (R54, R281): CPSR.M is written, by MSR or by an SPSR copy, with a value that is not a mode.  Raised in both modes; safe. -/
  | badMode
  /-- `msr-t` (R53, R281): an MSR to the CPSR control field would change T.  Raised in both modes; safe. -/
  | msrT
  /-- `cond-nv` (R172, R201): an ARM word has cond = 1111.  Raised only in strict mode; safe. -/
  | condNv
  /-- `arm-pc-unaligned` (R213): a data-processing instruction with S = 0 writes a PC value with bits 1:0 != 0.  Raised only in strict mode; safe. -/
  | armPcUnaligned
  /-- `dp-s-pc-nospsr` (R213): a data-processing instruction with S = 1 and Rd = 15 runs in User or System mode.  Raised in both modes; safe. -/
  | dpSPcNospsr
  /-- `ret-pc-unaligned` (R213): an exception return by data processing gives a PC that is misaligned for the restored T.  Raised only in strict mode; safe. -/
  | retPcUnaligned
  /-- `dp-regshift-rs-pc` (R212): register-shift form with Rs = 15.  Raised in both modes; safe. -/
  | dpRegshiftRsPc
  /-- `dp-regshift-pc` (R212): register-shift form with Rd, Rn or Rm = 15.  Raised only in strict mode; safe. -/
  | dpRegshiftPc
  /-- `mul-pc` (R260, R261): MUL or MLA with a register = 15.  Raised in both modes; safe. -/
  | mulPc
  /-- `mul-rd-rm` (R260, R261): MUL or MLA with Rd = Rm.  Raised in both modes; safe. -/
  | mulRdRm
  /-- `mull-regs` (R262-R265): a long multiply with a register = 15, RdHi = RdLo, or RdHi or RdLo = Rm.  Raised in both modes; safe. -/
  | mullRegs
  /-- `mrs-pc` (R280): MRS with Rd = 15.  Raised in both modes; safe. -/
  | mrsPc
  /-- `mrs-spsr-nospsr` (R280): MRS of the SPSR in User or System mode.  Raised in both modes; safe. -/
  | mrsSpsrNospsr
  /-- `msr-spsr-nospsr` (R281): MSR to the SPSR in User or System mode.  Raised in both modes; safe. -/
  | msrSpsrNospsr
  /-- `msr-pc` (R282): MSR (register) with Rm = 15.  Raised in both modes; safe. -/
  | msrPc
  /-- `swp-pc` (R290, R291): SWP or SWPB with Rd, Rm or Rn = 15.  Raised in both modes; safe. -/
  | swpPc
  /-- `swp-rn-overlap` (R290, R291): SWP or SWPB with Rn = Rm or Rn = Rd.  Raised in both modes; safe. -/
  | swpRnOverlap
  /-- `ls-wb-pc` (R300, R310): a load or store that writes back with Rn = 15.  Raised in both modes; safe. -/
  | lsWbPc
  /-- `ls-rm-pc` (R300, R310): register-offset load or store with Rm = 15.  Raised in both modes; safe. -/
  | lsRmPc
  /-- `ldr-wb-rd` (R300, R310): a load that writes back with Rn = Rd.  Raised only in strict mode; safe. -/
  | ldrWbRd
  /-- `str-wb-rd` (R300, R310): a store that writes back with Rn = Rd.  Raised only in strict mode; safe. -/
  | strWbRd
  /-- `ls3-post-w` (R310): a halfword or signed transfer with P = 0 and W = 1.  Raised in both modes; safe. -/
  | ls3PostW
  /-- `ldrb-pc` (R303, R307): LDRB or LDRBT with Rd = 15.  Raised in both modes; safe. -/
  | ldrbPc
  /-- `strb-pc` (R304, R308): STRB or STRBT with Rd = 15.  Raised in both modes; safe. -/
  | strbPc
  /-- `ldrt-pc` (R305): LDRT with Rd = 15.  Raised in both modes; safe. -/
  | ldrtPc
  /-- `ldrh-pc` (R311): LDRH with Rd = 15.  Raised in both modes; safe. -/
  | ldrhPc
  /-- `strh-pc` (R312): STRH with Rd = 15.  Raised only in strict mode; safe. -/
  | strhPc
  /-- `ldrsb-pc` (R313): LDRSB with Rd = 15.  Raised in both modes; safe. -/
  | ldrsbPc
  /-- `ldrsh-pc` (R314): LDRSH with Rd = 15.  Raised in both modes; safe. -/
  | ldrshPc
  /-- `ldrh-unaligned` (R311, R457, R464): LDRH at an odd address.  Raised only in strict mode; safe. -/
  | ldrhUnaligned
  /-- `strh-unaligned` (R312, R455, R463): STRH at an odd address.  Raised only in strict mode; safe. -/
  | strhUnaligned
  /-- `ldrsh-unaligned` (R314, R458): LDRSH at an odd address.  Raised only in strict mode; safe. -/
  | ldrshUnaligned
  /-- `ldm-stm-pc-base` (R320): LDM or STM with Rn = 15.  Raised in both modes; safe. -/
  | ldmStmPcBase
  /-- `ldm-stm-empty` (R320): LDM or STM with an empty register list.  Raised only in strict mode; safe. -/
  | ldmStmEmpty
  /-- `ldm-wb-base-in-list` (R321): LDM with W = 1 and Rn in the list.  Raised only in strict mode; safe. -/
  | ldmWbBaseInList
  /-- `stm-wb-base-not-lowest` (R322, R469): STM with W = 1 and Rn in the list but not lowest.  Raised only in strict mode; safe. -/
  | stmWbBaseNotLowest
  /-- `ldm-usr-wb` (R323): a User-bank LDM with W = 1.  Raised in both modes; safe. -/
  | ldmUsrWb
  /-- `ldm-usr-in-usr` (R323): a User-bank LDM in User or System mode.  Raised in both modes; safe. -/
  | ldmUsrInUsr
  /-- `ldm-ret-nospsr` (R324): LDM with S = 1 and R15 in the list in User or System mode.  Raised in both modes; safe. -/
  | ldmRetNospsr
  /-- `stm-usr-wb` (R325): a User-bank STM with W = 1.  Raised in both modes; safe. -/
  | stmUsrWb
  /-- `stm-usr-in-usr` (R325): a User-bank STM in User or System mode.  Raised in both modes; safe. -/
  | stmUsrInUsr
  /-- `bx-arm-unaligned` (R352, R433): BX to ARM state with bit 1 of the target = 1.  Raised only in strict mode; safe. -/
  | bxArmUnaligned
  /-- `t-mul-rd-rm` (R425): Thumb MUL with Rd = Rs.  Raised only in strict mode; safe. -/
  | tMulRdRm
  /-- `t5-lo-lo` (R429): Thumb ADD, CMP or MOV (hi) with H1 = H2 = 0.  Raised only in strict mode; safe. -/
  | t5LoLo
  /-- `t-empty-list` (R467-R470): PUSH, POP, STMIA or LDMIA with an empty list.  Raised only in strict mode; safe. -/
  | tEmptyList
  /-- `dma-src-ctl-3` (R540): DMA source control = 11.  Raised only in strict mode; safe. -/
  | dmaSrcCtl3
  /-- `dma-drq` (R540): DMAnCNT_H bit 11 (Game Pak DRQ) set.  Raised in both modes; safe. -/
  | dmaDrq
  deriving DecidableEq, Repr

/-- The hazards of spec/70_reset_and_hazards.md section 3. -/
inductive Hazard where
  /-- `usr-bank-next` (R611): a banked register accessed right after a User-bank LDM or STM.  Raised by every
  instruction that names such a register, only in strict mode; safe. -/
  | usrBankNext
  /-- `smc-prefetch` (R612): a CPU store into the two instruction slots after it.  Raised by every store, only in strict
  mode; safe. -/
  | smcPrefetch
  deriving DecidableEq, Repr

/-- How a step can stop (R16): a model fault, which is no hardware event and carries no state. -/
inductive Fault where
  /-- `ModelFault(Unpredictable, case)` (R20).  Raised by the instruction the case names; safe. -/
  | unpredictable (case : Unpredictable)
  /-- `ModelFault(Hazard, case)` (R611, R612).  Raised by the CPU in strict mode; safe. -/
  | hazard (case : Hazard)
  deriving DecidableEq, Repr

/-- Why an instruction has no meaning here. -/
inductive Refusal where
  /-- The instruction is not modelled yet.  Raised by its arm of `exec`; safe. -/
  | notModelled (mnemonic : String)
  deriving DecidableEq, Repr

/-- What an instruction or a step answers. -/
abbrev Outcome := Host.Outcome State Fault Refusal

/-- The devices after reset (R523-R525, R535, R540, R550-R552, R560, R565, R570, R600). -/
def Devices.reset : Devices where
  ie := 0
  iflags := 0
  ime := false
  halted := false
  timers := Vector.replicate 4 ⟨0, 0, 0, false, false, false, 0⟩
  dma := Vector.replicate 4 ⟨0, 0, 0, 0, 0, 0, 0, false⟩
  ppu := ⟨0, 0, 0⟩
  dispstat := ⟨false, false, false, 0⟩
  fifoA := ⟨[], 0⟩
  fifoB := ⟨[], 0⟩
  keycnt := ⟨0, false, false⟩

/-- The general registers after reset: with direct boot the values of R603; without, zero for every register, which
the spec leaves unset (R62).  DESIGN CHOICE, log entry 1. -/
def resetRegisters (direct : Bool) : Vector Word 30 :=
  let zero : Vector Word 30 := Vector.replicate 30 0
  if direct then ((zero.set 13 0x03007F00).set 22 0x03007FA0).set 24 0x03007FE0 else zero

/-- The CPSR after reset (R62, R603).  Without direct boot the flags are a draw in the spec; the model names 0.
DESIGN CHOICE, log entry 2. -/
def resetCpsr (direct : Bool) : Cpsr :=
  if direct then ⟨false, false, false, false, false, false, false, .sys⟩
  else ⟨false, false, false, false, true, true, false, .svc⟩

/-- The state after reset under given parameters and images (R10, R600, R603): `bios` is `BIOS_IMAGE`, if the host
supplies it, and `rom` is `ROM_IMAGE`. -/
def State.resetWith (p : Params) (bios : Option (Vector Byte 0x4000)) (rom : List Byte) : State where
  gpr := resetRegisters p.directBoot
  pc := if p.directBoot then 0x08000000 else 0x00000000
  cpsr := resetCpsr p.directBoot
  spsr := Vector.replicate 5 ⟨false, false, false, false, false, false, false, 0⟩
  lastUsrBank := false
  mem := imagesMemory bios rom
  dev := Devices.reset
  params := { p with biosImage := bios.isSome, romSize := min rom.length 0x2000000 }
  draws := 0
  iteration := 0
  dmaResume := none

/-- The machine right after reset (R600), with no image loaded, under the defaults of R10 but for `UNPRED_MODE`, which is
`arm7tdmi`, so that an instruction runs wherever the spec gives it an effect.  DESIGN CHOICE, log entry 4. -/
def State.reset : State := State.resetWith { Params.default with unpred := .arm7tdmi } none []

end Sys2Proof.Machine
end

