-- ==== Sys2Proof/Syntax.lean ====
section
/-!
DEFINITION. The instructions: one constructor of `Instr` for every mnemonic of spec/opcode_table.json, carrying the
fields of its encoding (spec/30_encoding.md), the should-be-zero and should-be-one fields among them
(spec/00_scope.md rule R21), so that no bit of a word is lost.
-/

namespace Sys2Proof

/-- A 4-bit register field (R36). -/
abbrev Reg := BitVec 4

/-- A 3-bit register field of a Thumb instruction, naming R0 to R7 (R36, R160). -/
abbrev LowReg := BitVec 3

/-- The condition field (R200); `nv` is the reserved value 1111 (R201). -/
inductive Cond where
  | eq | ne | cs | cc | mi | pl | vs | vc | hi | ls | ge | lt | gt | le | al | nv
  deriving DecidableEq, Repr

/-- The `shift` field, bits 6:5 (R135). -/
inductive Shift where
  | lsl | lsr | asr | ror
  deriving DecidableEq, Repr

/-- Every instruction of the opcode table.  Field names are those of the table; `s`, `p`, `u`, `w`, `n`, `r` are its
one-bit fields, `amt` and `sh` are `shift_imm` and `shift`, `rot` is `rotate`, and the fields that begin with `sbz` or
`sbo` are the bits that should be zero or one. -/
inductive Instr where
  -- ARM data processing, formats A1 (`Imm`), A2 (`Rsi`) and A3 (`Rsr`) (R132-R135)
  /-- `AND_imm` (R220). -/
  | andImm (c : Cond) (s : Bool) (rn rd : Reg) (rot : BitVec 4) (imm8 : BitVec 8)
  /-- `AND_rsi` (R220). -/
  | andRsi (c : Cond) (s : Bool) (rn rd : Reg) (amt : BitVec 5) (sh : Shift) (rm : Reg)
  /-- `AND_rsr` (R220). -/
  | andRsr (c : Cond) (s : Bool) (rn rd rs : Reg) (sh : Shift) (rm : Reg)
  /-- `EOR_imm` (R221). -/
  | eorImm (c : Cond) (s : Bool) (rn rd : Reg) (rot : BitVec 4) (imm8 : BitVec 8)
  /-- `EOR_rsi` (R221). -/
  | eorRsi (c : Cond) (s : Bool) (rn rd : Reg) (amt : BitVec 5) (sh : Shift) (rm : Reg)
  /-- `EOR_rsr` (R221). -/
  | eorRsr (c : Cond) (s : Bool) (rn rd rs : Reg) (sh : Shift) (rm : Reg)
  /-- `SUB_imm` (R222). -/
  | subImm (c : Cond) (s : Bool) (rn rd : Reg) (rot : BitVec 4) (imm8 : BitVec 8)
  /-- `SUB_rsi` (R222). -/
  | subRsi (c : Cond) (s : Bool) (rn rd : Reg) (amt : BitVec 5) (sh : Shift) (rm : Reg)
  /-- `SUB_rsr` (R222). -/
  | subRsr (c : Cond) (s : Bool) (rn rd rs : Reg) (sh : Shift) (rm : Reg)
  /-- `RSB_imm` (R223). -/
  | rsbImm (c : Cond) (s : Bool) (rn rd : Reg) (rot : BitVec 4) (imm8 : BitVec 8)
  /-- `RSB_rsi` (R223). -/
  | rsbRsi (c : Cond) (s : Bool) (rn rd : Reg) (amt : BitVec 5) (sh : Shift) (rm : Reg)
  /-- `RSB_rsr` (R223). -/
  | rsbRsr (c : Cond) (s : Bool) (rn rd rs : Reg) (sh : Shift) (rm : Reg)
  /-- `ADD_imm` (R224). -/
  | addImm (c : Cond) (s : Bool) (rn rd : Reg) (rot : BitVec 4) (imm8 : BitVec 8)
  /-- `ADD_rsi` (R224). -/
  | addRsi (c : Cond) (s : Bool) (rn rd : Reg) (amt : BitVec 5) (sh : Shift) (rm : Reg)
  /-- `ADD_rsr` (R224). -/
  | addRsr (c : Cond) (s : Bool) (rn rd rs : Reg) (sh : Shift) (rm : Reg)
  /-- `ADC_imm` (R225). -/
  | adcImm (c : Cond) (s : Bool) (rn rd : Reg) (rot : BitVec 4) (imm8 : BitVec 8)
  /-- `ADC_rsi` (R225). -/
  | adcRsi (c : Cond) (s : Bool) (rn rd : Reg) (amt : BitVec 5) (sh : Shift) (rm : Reg)
  /-- `ADC_rsr` (R225). -/
  | adcRsr (c : Cond) (s : Bool) (rn rd rs : Reg) (sh : Shift) (rm : Reg)
  /-- `SBC_imm` (R226). -/
  | sbcImm (c : Cond) (s : Bool) (rn rd : Reg) (rot : BitVec 4) (imm8 : BitVec 8)
  /-- `SBC_rsi` (R226). -/
  | sbcRsi (c : Cond) (s : Bool) (rn rd : Reg) (amt : BitVec 5) (sh : Shift) (rm : Reg)
  /-- `SBC_rsr` (R226). -/
  | sbcRsr (c : Cond) (s : Bool) (rn rd rs : Reg) (sh : Shift) (rm : Reg)
  /-- `RSC_imm` (R227). -/
  | rscImm (c : Cond) (s : Bool) (rn rd : Reg) (rot : BitVec 4) (imm8 : BitVec 8)
  /-- `RSC_rsi` (R227). -/
  | rscRsi (c : Cond) (s : Bool) (rn rd : Reg) (amt : BitVec 5) (sh : Shift) (rm : Reg)
  /-- `RSC_rsr` (R227). -/
  | rscRsr (c : Cond) (s : Bool) (rn rd rs : Reg) (sh : Shift) (rm : Reg)
  /-- `TST_imm` (R228). -/
  | tstImm (c : Cond) (rn : Reg) (sbz rot : BitVec 4) (imm8 : BitVec 8)
  /-- `TST_rsi` (R228). -/
  | tstRsi (c : Cond) (rn : Reg) (sbz : BitVec 4) (amt : BitVec 5) (sh : Shift) (rm : Reg)
  /-- `TST_rsr` (R228). -/
  | tstRsr (c : Cond) (rn : Reg) (sbz : BitVec 4) (rs : Reg) (sh : Shift) (rm : Reg)
  /-- `TEQ_imm` (R229). -/
  | teqImm (c : Cond) (rn : Reg) (sbz rot : BitVec 4) (imm8 : BitVec 8)
  /-- `TEQ_rsi` (R229). -/
  | teqRsi (c : Cond) (rn : Reg) (sbz : BitVec 4) (amt : BitVec 5) (sh : Shift) (rm : Reg)
  /-- `TEQ_rsr` (R229). -/
  | teqRsr (c : Cond) (rn : Reg) (sbz : BitVec 4) (rs : Reg) (sh : Shift) (rm : Reg)
  /-- `CMP_imm` (R230). -/
  | cmpImm (c : Cond) (rn : Reg) (sbz rot : BitVec 4) (imm8 : BitVec 8)
  /-- `CMP_rsi` (R230). -/
  | cmpRsi (c : Cond) (rn : Reg) (sbz : BitVec 4) (amt : BitVec 5) (sh : Shift) (rm : Reg)
  /-- `CMP_rsr` (R230). -/
  | cmpRsr (c : Cond) (rn : Reg) (sbz : BitVec 4) (rs : Reg) (sh : Shift) (rm : Reg)
  /-- `CMN_imm` (R231). -/
  | cmnImm (c : Cond) (rn : Reg) (sbz rot : BitVec 4) (imm8 : BitVec 8)
  /-- `CMN_rsi` (R231). -/
  | cmnRsi (c : Cond) (rn : Reg) (sbz : BitVec 4) (amt : BitVec 5) (sh : Shift) (rm : Reg)
  /-- `CMN_rsr` (R231). -/
  | cmnRsr (c : Cond) (rn : Reg) (sbz : BitVec 4) (rs : Reg) (sh : Shift) (rm : Reg)
  /-- `ORR_imm` (R232). -/
  | orrImm (c : Cond) (s : Bool) (rn rd : Reg) (rot : BitVec 4) (imm8 : BitVec 8)
  /-- `ORR_rsi` (R232). -/
  | orrRsi (c : Cond) (s : Bool) (rn rd : Reg) (amt : BitVec 5) (sh : Shift) (rm : Reg)
  /-- `ORR_rsr` (R232). -/
  | orrRsr (c : Cond) (s : Bool) (rn rd rs : Reg) (sh : Shift) (rm : Reg)
  /-- `MOV_imm` (R233). -/
  | movImm (c : Cond) (s : Bool) (sbz : BitVec 4) (rd : Reg) (rot : BitVec 4) (imm8 : BitVec 8)
  /-- `MOV_rsi` (R233). -/
  | movRsi (c : Cond) (s : Bool) (sbz : BitVec 4) (rd : Reg) (amt : BitVec 5) (sh : Shift) (rm : Reg)
  /-- `MOV_rsr` (R233). -/
  | movRsr (c : Cond) (s : Bool) (sbz : BitVec 4) (rd rs : Reg) (sh : Shift) (rm : Reg)
  /-- `BIC_imm` (R234). -/
  | bicImm (c : Cond) (s : Bool) (rn rd : Reg) (rot : BitVec 4) (imm8 : BitVec 8)
  /-- `BIC_rsi` (R234). -/
  | bicRsi (c : Cond) (s : Bool) (rn rd : Reg) (amt : BitVec 5) (sh : Shift) (rm : Reg)
  /-- `BIC_rsr` (R234). -/
  | bicRsr (c : Cond) (s : Bool) (rn rd rs : Reg) (sh : Shift) (rm : Reg)
  /-- `MVN_imm` (R235). -/
  | mvnImm (c : Cond) (s : Bool) (sbz : BitVec 4) (rd : Reg) (rot : BitVec 4) (imm8 : BitVec 8)
  /-- `MVN_rsi` (R235). -/
  | mvnRsi (c : Cond) (s : Bool) (sbz : BitVec 4) (rd : Reg) (amt : BitVec 5) (sh : Shift) (rm : Reg)
  /-- `MVN_rsr` (R235). -/
  | mvnRsr (c : Cond) (s : Bool) (sbz : BitVec 4) (rd rs : Reg) (sh : Shift) (rm : Reg)
  -- ARM multiply, formats A4 and A5 (R136, R137)
  /-- `MUL` (R260). -/
  | mul (c : Cond) (s : Bool) (rd : Reg) (sbz : BitVec 4) (rs rm : Reg)
  /-- `MLA` (R261). -/
  | mla (c : Cond) (s : Bool) (rd rn rs rm : Reg)
  /-- `UMULL` (R262). -/
  | umull (c : Cond) (s : Bool) (rdHi rdLo rs rm : Reg)
  /-- `UMLAL` (R263). -/
  | umlal (c : Cond) (s : Bool) (rdHi rdLo rs rm : Reg)
  /-- `SMULL` (R264). -/
  | smull (c : Cond) (s : Bool) (rdHi rdLo rs rm : Reg)
  /-- `SMLAL` (R265). -/
  | smlal (c : Cond) (s : Bool) (rdHi rdLo rs rm : Reg)
  -- ARM PSR transfer, formats A7-A9 (R139-R141)
  /-- `MRS` (R280). -/
  | mrs (c : Cond) (r : Bool) (sbo : BitVec 4) (rd : Reg) (sbzA : BitVec 4) (sbzB : BitVec 2) (sbzC : BitVec 4)
  /-- `MSR_reg` (R282). -/
  | msrReg (c : Cond) (r : Bool) (mask sbo sbzA : BitVec 4) (sbzB : BitVec 2) (rm : Reg)
  /-- `MSR_imm` (R283). -/
  | msrImm (c : Cond) (r : Bool) (mask sbo rot : BitVec 4) (imm8 : BitVec 8)
  -- ARM swap, format A6 (R138)
  /-- `SWP` (R290). -/
  | swp (c : Cond) (rn rd : Reg) (sbz : BitVec 4) (rm : Reg)
  /-- `SWPB` (R291). -/
  | swpb (c : Cond) (rn rd : Reg) (sbz : BitVec 4) (rm : Reg)
  -- ARM branch and exchange, format A10 (R142)
  /-- `BX` (R352). -/
  | bx (c : Cond) (sbo : BitVec 12) (rm : Reg)
  -- ARM halfword and signed transfers, formats A11 and A12 (R143)
  /-- `STRH_reg` (R312). -/
  | strhReg (c : Cond) (p u w : Bool) (rn rd : Reg) (sbz : BitVec 4) (rm : Reg)
  /-- `STRH_imm` (R312). -/
  | strhImm (c : Cond) (p u w : Bool) (rn rd : Reg) (immH immL : BitVec 4)
  /-- `LDRH_reg` (R311). -/
  | ldrhReg (c : Cond) (p u w : Bool) (rn rd : Reg) (sbz : BitVec 4) (rm : Reg)
  /-- `LDRH_imm` (R311). -/
  | ldrhImm (c : Cond) (p u w : Bool) (rn rd : Reg) (immH immL : BitVec 4)
  /-- `LDRSB_reg` (R313). -/
  | ldrsbReg (c : Cond) (p u w : Bool) (rn rd : Reg) (sbz : BitVec 4) (rm : Reg)
  /-- `LDRSB_imm` (R313). -/
  | ldrsbImm (c : Cond) (p u w : Bool) (rn rd : Reg) (immH immL : BitVec 4)
  /-- `LDRSH_reg` (R314). -/
  | ldrshReg (c : Cond) (p u w : Bool) (rn rd : Reg) (sbz : BitVec 4) (rm : Reg)
  /-- `LDRSH_imm` (R314). -/
  | ldrshImm (c : Cond) (p u w : Bool) (rn rd : Reg) (immH immL : BitVec 4)
  -- ARM word and byte transfers, formats A13 and A14 (R144)
  /-- `LDR_imm_pre` (R301). -/
  | ldrImmPre (c : Cond) (u w : Bool) (rn rd : Reg) (imm12 : BitVec 12)
  /-- `LDR_imm_post` (R301). -/
  | ldrImmPost (c : Cond) (u : Bool) (rn rd : Reg) (imm12 : BitVec 12)
  /-- `LDR_reg_pre` (R301). -/
  | ldrRegPre (c : Cond) (u w : Bool) (rn rd : Reg) (amt : BitVec 5) (sh : Shift) (rm : Reg)
  /-- `LDR_reg_post` (R301). -/
  | ldrRegPost (c : Cond) (u : Bool) (rn rd : Reg) (amt : BitVec 5) (sh : Shift) (rm : Reg)
  /-- `STR_imm_pre` (R302). -/
  | strImmPre (c : Cond) (u w : Bool) (rn rd : Reg) (imm12 : BitVec 12)
  /-- `STR_imm_post` (R302). -/
  | strImmPost (c : Cond) (u : Bool) (rn rd : Reg) (imm12 : BitVec 12)
  /-- `STR_reg_pre` (R302). -/
  | strRegPre (c : Cond) (u w : Bool) (rn rd : Reg) (amt : BitVec 5) (sh : Shift) (rm : Reg)
  /-- `STR_reg_post` (R302). -/
  | strRegPost (c : Cond) (u : Bool) (rn rd : Reg) (amt : BitVec 5) (sh : Shift) (rm : Reg)
  /-- `LDRB_imm_pre` (R303). -/
  | ldrbImmPre (c : Cond) (u w : Bool) (rn rd : Reg) (imm12 : BitVec 12)
  /-- `LDRB_imm_post` (R303). -/
  | ldrbImmPost (c : Cond) (u : Bool) (rn rd : Reg) (imm12 : BitVec 12)
  /-- `LDRB_reg_pre` (R303). -/
  | ldrbRegPre (c : Cond) (u w : Bool) (rn rd : Reg) (amt : BitVec 5) (sh : Shift) (rm : Reg)
  /-- `LDRB_reg_post` (R303). -/
  | ldrbRegPost (c : Cond) (u : Bool) (rn rd : Reg) (amt : BitVec 5) (sh : Shift) (rm : Reg)
  /-- `STRB_imm_pre` (R304). -/
  | strbImmPre (c : Cond) (u w : Bool) (rn rd : Reg) (imm12 : BitVec 12)
  /-- `STRB_imm_post` (R304). -/
  | strbImmPost (c : Cond) (u : Bool) (rn rd : Reg) (imm12 : BitVec 12)
  /-- `STRB_reg_pre` (R304). -/
  | strbRegPre (c : Cond) (u w : Bool) (rn rd : Reg) (amt : BitVec 5) (sh : Shift) (rm : Reg)
  /-- `STRB_reg_post` (R304). -/
  | strbRegPost (c : Cond) (u : Bool) (rn rd : Reg) (amt : BitVec 5) (sh : Shift) (rm : Reg)
  /-- `LDRT_imm` (R305). -/
  | ldrtImm (c : Cond) (u : Bool) (rn rd : Reg) (imm12 : BitVec 12)
  /-- `LDRT_reg` (R305). -/
  | ldrtReg (c : Cond) (u : Bool) (rn rd : Reg) (amt : BitVec 5) (sh : Shift) (rm : Reg)
  /-- `STRT_imm` (R306). -/
  | strtImm (c : Cond) (u : Bool) (rn rd : Reg) (imm12 : BitVec 12)
  /-- `STRT_reg` (R306). -/
  | strtReg (c : Cond) (u : Bool) (rn rd : Reg) (amt : BitVec 5) (sh : Shift) (rm : Reg)
  /-- `LDRBT_imm` (R307). -/
  | ldrbtImm (c : Cond) (u : Bool) (rn rd : Reg) (imm12 : BitVec 12)
  /-- `LDRBT_reg` (R307). -/
  | ldrbtReg (c : Cond) (u : Bool) (rn rd : Reg) (amt : BitVec 5) (sh : Shift) (rm : Reg)
  /-- `STRBT_imm` (R308). -/
  | strbtImm (c : Cond) (u : Bool) (rn rd : Reg) (imm12 : BitVec 12)
  /-- `STRBT_reg` (R308). -/
  | strbtReg (c : Cond) (u : Bool) (rn rd : Reg) (amt : BitVec 5) (sh : Shift) (rm : Reg)
  -- The architecturally undefined space, format A15 (R149)
  /-- `UND` (R366). -/
  | und (c : Cond) (hi : BitVec 20) (lo : BitVec 4)
  -- ARM block transfers, format A16 (R145)
  /-- `LDM` (R321). -/
  | ldm (c : Cond) (p u w : Bool) (rn : Reg) (list : BitVec 16)
  /-- `STM` (R322). -/
  | stm (c : Cond) (p u w : Bool) (rn : Reg) (list : BitVec 16)
  /-- `LDM_usr` (R323). -/
  | ldmUsr (c : Cond) (p u w : Bool) (rn : Reg) (list : BitVec 15)
  /-- `LDM_ret` (R324). -/
  | ldmRet (c : Cond) (p u w : Bool) (rn : Reg) (list : BitVec 15)
  /-- `STM_usr` (R325). -/
  | stmUsr (c : Cond) (p u w : Bool) (rn : Reg) (list : BitVec 16)
  -- ARM branches, format A17 (R146)
  /-- `B` (R350). -/
  | b (c : Cond) (off : BitVec 24)
  /-- `BL` (R351). -/
  | bl (c : Cond) (off : BitVec 24)
  -- ARM coprocessor instructions, formats A18-A20 (R147)
  /-- `LDC` (R362). -/
  | ldc (c : Cond) (p u n w : Bool) (rn : Reg) (crd cp : BitVec 4) (off8 : BitVec 8)
  /-- `STC` (R363). -/
  | stc (c : Cond) (p u n w : Bool) (rn : Reg) (crd cp : BitVec 4) (off8 : BitVec 8)
  /-- `CDP` (R361). -/
  | cdp (c : Cond) (op1 crn crd cp : BitVec 4) (op2 : BitVec 3) (crm : BitVec 4)
  /-- `MCR` (R364). -/
  | mcr (c : Cond) (op1 : BitVec 3) (crn : BitVec 4) (rd : Reg) (cp : BitVec 4) (op2 : BitVec 3) (crm : BitVec 4)
  /-- `MRC` (R365). -/
  | mrc (c : Cond) (op1 : BitVec 3) (crn : BitVec 4) (rd : Reg) (cp : BitVec 4) (op2 : BitVec 3) (crm : BitVec 4)
  -- ARM software interrupt, format A21 (R148)
  /-- `SWI` (R355). -/
  | swi (c : Cond) (comment : BitVec 24)
  -- Thumb move shifted register, T1 (R160)
  /-- `T_LSL_imm` (R401). -/
  | tLslImm (off5 : BitVec 5) (rs rd : LowReg)
  /-- `T_LSR_imm` (R402). -/
  | tLsrImm (off5 : BitVec 5) (rs rd : LowReg)
  /-- `T_ASR_imm` (R403). -/
  | tAsrImm (off5 : BitVec 5) (rs rd : LowReg)
  -- Thumb add/subtract, T2
  /-- `T_ADD_reg` (R404). -/
  | tAddReg (rn rs rd : LowReg)
  /-- `T_SUB_reg` (R405). -/
  | tSubReg (rn rs rd : LowReg)
  /-- `T_ADD_imm3` (R406). -/
  | tAddImm3 (imm3 : BitVec 3) (rs rd : LowReg)
  /-- `T_SUB_imm3` (R407). -/
  | tSubImm3 (imm3 : BitVec 3) (rs rd : LowReg)
  -- Thumb immediate, T3
  /-- `T_MOV_imm` (R408). -/
  | tMovImm (rd : LowReg) (imm8 : BitVec 8)
  /-- `T_CMP_imm` (R409). -/
  | tCmpImm (rd : LowReg) (imm8 : BitVec 8)
  /-- `T_ADD_imm8` (R410). -/
  | tAddImm8 (rd : LowReg) (imm8 : BitVec 8)
  /-- `T_SUB_imm8` (R411). -/
  | tSubImm8 (rd : LowReg) (imm8 : BitVec 8)
  -- Thumb ALU, T4 (R161)
  /-- `T_AND` (R412). -/
  | tAnd (rs rd : LowReg)
  /-- `T_EOR` (R413). -/
  | tEor (rs rd : LowReg)
  /-- `T_LSL_reg` (R414). -/
  | tLslReg (rs rd : LowReg)
  /-- `T_LSR_reg` (R415). -/
  | tLsrReg (rs rd : LowReg)
  /-- `T_ASR_reg` (R416). -/
  | tAsrReg (rs rd : LowReg)
  /-- `T_ADC` (R417). -/
  | tAdc (rs rd : LowReg)
  /-- `T_SBC` (R418). -/
  | tSbc (rs rd : LowReg)
  /-- `T_ROR` (R419). -/
  | tRor (rs rd : LowReg)
  /-- `T_TST` (R420). -/
  | tTst (rs rd : LowReg)
  /-- `T_NEG` (R421). -/
  | tNeg (rs rd : LowReg)
  /-- `T_CMP_reg` (R422). -/
  | tCmpReg (rs rd : LowReg)
  /-- `T_CMN` (R423). -/
  | tCmn (rs rd : LowReg)
  /-- `T_ORR` (R424). -/
  | tOrr (rs rd : LowReg)
  /-- `T_MUL` (R425). -/
  | tMul (rs rd : LowReg)
  /-- `T_BIC` (R426). -/
  | tBic (rs rd : LowReg)
  /-- `T_MVN` (R427). -/
  | tMvn (rs rd : LowReg)
  -- Thumb high registers and BX, T5 (R429)
  /-- `T_ADD_hi` (R430). -/
  | tAddHi (h1 h2 : Bool) (rs rd : LowReg)
  /-- `T_CMP_hi` (R431). -/
  | tCmpHi (h1 h2 : Bool) (rs rd : LowReg)
  /-- `T_MOV_hi` (R432). -/
  | tMovHi (h1 h2 : Bool) (rs rd : LowReg)
  /-- `T_BX` (R433). -/
  | tBx (sbzA : BitVec 1) (h2 : Bool) (rs : LowReg) (sbzB : BitVec 3)
  -- Thumb PC-relative load, T6
  /-- `T_LDR_pc` (R450). -/
  | tLdrPc (rd : LowReg) (word8 : BitVec 8)
  -- Thumb register-offset transfers, T7 and T8
  /-- `T_STR_reg` (R451). -/
  | tStrReg (ro rb rd : LowReg)
  /-- `T_STRB_reg` (R452). -/
  | tStrbReg (ro rb rd : LowReg)
  /-- `T_LDR_reg` (R453). -/
  | tLdrReg (ro rb rd : LowReg)
  /-- `T_LDRB_reg` (R454). -/
  | tLdrbReg (ro rb rd : LowReg)
  /-- `T_STRH_reg` (R455). -/
  | tStrhReg (ro rb rd : LowReg)
  /-- `T_LDSB` (R456). -/
  | tLdsb (ro rb rd : LowReg)
  /-- `T_LDRH_reg` (R457). -/
  | tLdrhReg (ro rb rd : LowReg)
  /-- `T_LDSH` (R458). -/
  | tLdsh (ro rb rd : LowReg)
  -- Thumb immediate-offset transfers, T9 and T10
  /-- `T_STR_imm` (R459). -/
  | tStrImm (off5 : BitVec 5) (rb rd : LowReg)
  /-- `T_LDR_imm` (R460). -/
  | tLdrImm (off5 : BitVec 5) (rb rd : LowReg)
  /-- `T_STRB_imm` (R461). -/
  | tStrbImm (off5 : BitVec 5) (rb rd : LowReg)
  /-- `T_LDRB_imm` (R462). -/
  | tLdrbImm (off5 : BitVec 5) (rb rd : LowReg)
  /-- `T_STRH_imm` (R463). -/
  | tStrhImm (off5 : BitVec 5) (rb rd : LowReg)
  /-- `T_LDRH_imm` (R464). -/
  | tLdrhImm (off5 : BitVec 5) (rb rd : LowReg)
  -- Thumb SP-relative transfers, T11
  /-- `T_STR_sp` (R465). -/
  | tStrSp (rd : LowReg) (word8 : BitVec 8)
  /-- `T_LDR_sp` (R466). -/
  | tLdrSp (rd : LowReg) (word8 : BitVec 8)
  -- Thumb address generation, T12 and T13
  /-- `T_ADD_pc` (R435). -/
  | tAddPc (rd : LowReg) (word8 : BitVec 8)
  /-- `T_ADD_sp` (R436). -/
  | tAddSp (rd : LowReg) (word8 : BitVec 8)
  /-- `T_ADD_sp_imm` (R437). -/
  | tAddSpImm (s : Bool) (sword7 : BitVec 7)
  -- Thumb push and pop, T14
  /-- `T_PUSH` (R467). -/
  | tPush (r : Bool) (list : BitVec 8)
  /-- `T_POP` (R468). -/
  | tPop (r : Bool) (list : BitVec 8)
  -- Thumb block transfers, T15
  /-- `T_STMIA` (R469). -/
  | tStmia (rb : LowReg) (list : BitVec 8)
  /-- `T_LDMIA` (R470). -/
  | tLdmia (rb : LowReg) (list : BitVec 8)
  -- Thumb conditional branch, T16 (`cond` is one of the first fourteen)
  /-- `T_B_cond` (R472). -/
  | tBCond (cond : Cond) (soff8 : BitVec 8)
  -- Thumb software interrupt, T17
  /-- `T_SWI` (R473). -/
  | tSwi (value8 : BitVec 8)
  -- Thumb branch, T18
  /-- `T_B` (R474). -/
  | tB (off11 : BitVec 11)
  -- Thumb long branch with link, T19
  /-- `T_BL_hi` (R475). -/
  | tBlHi (off11 : BitVec 11)
  /-- `T_BL_lo` (R476). -/
  | tBlLo (off11 : BitVec 11)
  deriving DecidableEq, Repr

end Sys2Proof
end

