-- ==== Sys2Proof/Machine/Ops.lean ====
section
/-!
DEFINITION. The named operations over memory and registers: the canonical memory list, the banked register view
(spec/10_state.md), the status registers, free values, UNPREDICTABLE cases, taking an exception and returning from one
(spec/60_exceptions.md section 1), and the host's reset.
-/

namespace Sys2Proof.Machine

-- Memory

/-- The byte stored at an address. -/
def Memory.read (m : Memory) (a : Nat) : Byte :=
  match m.find? (fun c => c.1 == a) with
  | some c => c.2
  | none => Memory.unlisted

/-- Put an entry at its place in rising order of address. -/
def Memory.insert (a : Nat) (b : Byte) : Memory → Memory
  | [] => [(a, b)]
  | c :: rest => if a < c.1 then (a, b) :: c :: rest else c :: Memory.insert a b rest

/-- Store a byte.  Storing what an unlisted address reads as removes the entry, so equal memories are equal lists. -/
def Memory.write (m : Memory) (a : Nat) (b : Byte) : Memory :=
  let others := m.filter (fun c => c.1 != a)
  if b = Memory.unlisted then others else Memory.insert a b others

/-- The canonical form: addresses strictly rising, and no entry equal to what an unlisted address reads as. -/
abbrev Memory.wf (m : Memory) : Prop :=
  m.Pairwise (fun c d => c.1 < d.1) ∧ ∀ c ∈ m, c.2 ≠ Memory.unlisted

-- Outcomes and UNPREDICTABLE cases

/-- Go on with a result, or stop with its fault. -/
def orFault {α : Type} (r : Except Fault α) (k : α → Outcome) : Outcome :=
  match r with
  | .ok a => k a
  | .error e => .fault e

/-- The machine treats UNPREDICTABLE cases strictly (R20). -/
def State.strict (s : State) : Bool := s.params.unpred == .strict

/-- `UNPREDICTABLE(case; arm7tdmi: E)` (R20): when `when_` holds, a strict machine faults; otherwise the step goes on
with `e`, which is E or the defined behaviour. -/
def unpredIf (s : State) (when_ : Bool) (case : Unpredictable) (e : Outcome) : Outcome :=
  if when_ && s.strict then .fault (.unpredictable case) else e

/-- `UNPREDICTABLE(case)` with no behaviour given (R20): both modes fault. -/
def stopIf (when_ : Bool) (case : Unpredictable) (e : Outcome) : Outcome :=
  if when_ then .fault (.unpredictable case) else e

-- Modes and status registers

/-- The encoding of a mode in `M` (R32). -/
def Mode.bits : Mode → BitVec 5
  | .usr => 0b10000
  | .fiq => 0b10001
  | .irq => 0b10010
  | .svc => 0b10011
  | .abt => 0b10111
  | .und => 0b11011
  | .sys => 0b11111

/-- The mode a value of `M` encodes, if it is one (R32). -/
def Mode.ofBits (m : BitVec 5) : Option Mode :=
  match m with
  | 0b10000#5 => some .usr
  | 0b10001#5 => some .fiq
  | 0b10010#5 => some .irq
  | 0b10011#5 => some .svc
  | 0b10111#5 => some .abt
  | 0b11011#5 => some .und
  | 0b11111#5 => some .sys
  | _ => none

/-- Every mode but User is privileged (R32, R531). -/
def Mode.privileged (m : Mode) : Bool := m != .usr

/-- Where a mode's SPSR lies; User and System mode have none (R33, R56). -/
def Mode.spsrIndex : Mode → Option (Fin 5)
  | .fiq => some 0
  | .irq => some 1
  | .svc => some 2
  | .abt => some 3
  | .und => some 4
  | .usr => none
  | .sys => none

/-- The layout of R50: flags in 31:28, bits 27:8 zero (R55), then I, F, T and M. -/
def statusWord (n z c v i f t : Bool) (m : BitVec 5) : Word :=
  BitVec.ofBool n ++ BitVec.ofBool z ++ BitVec.ofBool c ++ BitVec.ofBool v ++ 0#20 ++
    BitVec.ofBool i ++ BitVec.ofBool f ++ BitVec.ofBool t ++ m

/-- The CPSR as MRS reads it (R50, R280). -/
def Cpsr.toWord (p : Cpsr) : Word := statusWord p.n p.z p.c p.v p.i p.f p.t p.mode.bits

/-- An SPSR as MRS reads it (R56, R280). -/
def Psr.toWord (p : Psr) : Word := statusWord p.n p.z p.c p.v p.i p.f p.t p.m

/-- The CPSR value an exception entry saves (R56, R508). -/
def Cpsr.saved (p : Cpsr) : Psr := ⟨p.n, p.z, p.c, p.v, p.i, p.f, p.t, p.mode.bits⟩

/-- An SPSR copied to the CPSR, if its `M` is a mode (R54). -/
def Psr.restored (p : Psr) : Option Cpsr :=
  match Mode.ofBits p.m with
  | some mode => some ⟨p.n, p.z, p.c, p.v, p.i, p.f, p.t, mode⟩
  | none => none

/-- The current mode. -/
def State.mode (s : State) : Mode := s.cpsr.mode

/-- Replace the CPSR; the register view follows its mode at once (R34). -/
def State.setCpsr (s : State) (p : Cpsr) : State := { s with cpsr := p }

/-- Set the four condition flags (R51). -/
def State.setFlags (s : State) (n z c v : Bool) : State :=
  s.setCpsr { s.cpsr with n := n, z := z, c := c, v := v }

/-- The SPSR of a mode, if it has one (R33). -/
def State.spsrOf (s : State) (m : Mode) : Option Psr :=
  match m.spsrIndex with
  | some k => some s.spsr[k]
  | none => none

/-- Write the SPSR of a mode; a mode without one is left as it is. -/
def State.setSpsr (s : State) (m : Mode) (p : Psr) : State :=
  match m.spsrIndex with
  | some k => { s with spsr := s.spsr.set k p }
  | none => s

-- General registers

/-- The physical register that R<i>, i below 15, names in a mode: the table of R33 over the order of `State.gpr`. -/
def physReg (m : Mode) (i : Reg) : Fin 30 :=
  let usr : Fin 30 := Fin.ofNat 30 i.toNat
  if i.toNat < 8 then usr
  else
    match m with
    | .fiq => Fin.ofNat 30 (i.toNat + 7)
    | .irq => if i.toNat < 13 then usr else Fin.ofNat 30 (i.toNat + 9)
    | .svc => if i.toNat < 13 then usr else Fin.ofNat 30 (i.toNat + 11)
    | .abt => if i.toNat < 13 then usr else Fin.ofNat 30 (i.toNat + 13)
    | .und => if i.toNat < 13 then usr else Fin.ofNat 30 (i.toNat + 15)
    | .usr => usr
    | .sys => usr

/-- The register is one of the mode's own bank (R33, R611). -/
def banked (m : Mode) (i : Reg) : Bool :=
  match m with
  | .fiq => 8 ≤ i.toNat && i.toNat ≤ 14
  | .irq | .svc | .abt | .und => 13 ≤ i.toNat && i.toNat ≤ 14
  | .usr | .sys => false

/-- R<i> of a mode, i below 15 (R33). -/
def State.regOf (s : State) (m : Mode) (i : Reg) : Word := s.gpr[physReg m i]

/-- Write R<i> of a mode; R15 is shared by all modes, and writing it is a branch (R40, R43). -/
def State.setRegOf (s : State) (m : Mode) (i : Reg) (v : Word) : State :=
  if i = 15 then { s with pc := v } else { s with gpr := s.gpr.set (physReg m i) v }

/-- `x[i]`, i below 15, in the current mode (R13, R33). -/
def State.x (s : State) (i : Reg) : Word := s.regOf s.cpsr.mode i

/-- `x[i] <- v` in the current mode (R13, R43). -/
def State.setX (s : State) (i : Reg) (v : Word) : State := s.setRegOf s.cpsr.mode i v

/-- `x_usr[i]`, i below 15 (R13, R34). -/
def State.xUsr (s : State) (i : Reg) : Word := s.regOf .usr i

/-- `x_usr[i] <- v` (R13, R34). -/
def State.setXUsr (s : State) (i : Reg) (v : Word) : State := s.setRegOf .usr i v

/-- `x[i]` as an ARM instruction reads it: R15 gives `pc + 8` (R41). -/
def State.armX (s : State) (i : Reg) : Word := if i = 15 then s.pc + 8 else s.x i

/-- `x[i]` where an ARM instruction reads R15 as `pc + 12`: a stored register, and the register-shift form
(R41, R212, R302, R322). -/
def State.armX12 (s : State) (i : Reg) : Word := if i = 15 then s.pc + 12 else s.x i

/-- `x[i]` as a Thumb instruction reads it: R15 gives `pc + 4` (R41, R400). -/
def State.thumbX (s : State) (i : Reg) : Word := if i = 15 then s.pc + 4 else s.x i

/-- A 3-bit field as a register number (R160). -/
def low (r : LowReg) : Reg := r.zeroExtend 4

/-- The register number `H:r` of a high-register form (R429). -/
def high (h : Bool) (r : LowReg) : Reg := BitVec.ofBool h ++ r

/-- The stack pointer, the link register and the program counter (R35). -/
def regSP : Reg := 13
def regLR : Reg := 14
def regPC : Reg := 15

-- The program counter

/-- Set the address of the next instruction. -/
def State.setPc (s : State) (v : Word) : State := { s with pc := v }

/-- The end of an ARM instruction that does not write the pc (R42). -/
def State.nextArm (s : State) : State := s.setPc (s.pc + 4)

/-- The end of a Thumb instruction that does not write the pc (R42). -/
def State.nextThumb (s : State) : State := s.setPc (s.pc + 2)

/-- `Align(a, 4)` (R12). -/
def align4 (a : Word) : Word := a &&& 0xFFFFFFFC#32

/-- `Align(a, 2)` (R12). -/
def align2 (a : Word) : Word := a &&& 0xFFFFFFFE#32

/-- `Align(a, 2 if T else 4)` (R213, R324). -/
def alignFor (thumb : Bool) (a : Word) : Word := if thumb then align2 a else align4 a

-- Free values

/-- Take a free byte (R18, R86). -/
def State.drawByte (s : State) : Byte × State :=
  (Config.freeByte s.draws, { s with draws := s.draws + 1 })

/-- Take a free bit (R18, R260). -/
def State.drawBit (s : State) : Bool × State :=
  (Config.freeBit s.draws, { s with draws := s.draws + 1 })

/-- The buttons held in this iteration (R565). -/
def State.buttons (s : State) : BitVec 10 :=
  match s.params.input with
  | some mask => mask
  | none => Config.input s.iteration

/-- The nFIQ input at the poll of this iteration (R521). -/
def State.fiqLine (s : State) : Bool :=
  match s.params.fiqLine with
  | some b => b
  | none => Config.fiqLine s.iteration

/-- The cycles of this iteration (R530, R620). -/
def State.cycles (s : State) : Nat :=
  match s.params.cycleCost with
  | some n => n
  | none => Config.cycleCost s.iteration

-- Exceptions

/-- The exceptions with an entry procedure (R500, R506); Reset is `State.reset`. -/
inductive Exc where
  | undefined | softwareInterrupt | prefetchAbort | dataAbort | irq | fiq
  deriving DecidableEq, Repr

/-- The vector of an exception (R506). -/
def Exc.vector : Exc → Word
  | .undefined => 0x00000004
  | .softwareInterrupt => 0x00000008
  | .prefetchAbort => 0x0000000C
  | .dataAbort => 0x00000010
  | .irq => 0x00000018
  | .fiq => 0x0000001C

/-- The mode an exception enters (R506). -/
def Exc.mode : Exc → Mode
  | .undefined => .und
  | .softwareInterrupt => .svc
  | .prefetchAbort => .abt
  | .dataAbort => .abt
  | .irq => .irq
  | .fiq => .fiq

/-- What the link is counted from: R509 gives it from `pc` for a synchronous exception and from `next` for IRQ and
FIQ; both are `State.pc` where the entry is taken. -/
def Exc.linkOffset (e : Exc) (thumb : Bool) : Word :=
  match e with
  | .undefined | .softwareInterrupt => if thumb then 2 else 4
  | .prefetchAbort => 4
  | .dataAbort => 8
  | .irq | .fiq => 4

/-- The entry procedure of R508: the CPSR is saved in the SPSR of the entered mode and the link in its R14; the mode
changes, T is cleared, I is set, F only by FIQ; the pc goes to the vector. -/
def takeExceptionWithLink (e : Exc) (link : Word) (s : State) : State :=
  let entered := (s.setSpsr e.mode s.cpsr.saved).setRegOf e.mode regLR link
  (entered.setCpsr
    { s.cpsr with mode := e.mode, t := false, i := true, f := s.cpsr.f || e == .fiq }).setPc e.vector

/-- Taking an exception in the current state, with the link R509 gives for the instruction set of `CPSR.T`. -/
def takeException (e : Exc) (s : State) : State :=
  takeExceptionWithLink e (s.pc + e.linkOffset s.cpsr.t) s

/-- `CPSR <- SPSR` of an exception return (R511): a mode without an SPSR and a bad mode value are UNPREDICTABLE with no
behaviour given (R54, R56, R213, R324). -/
def restoreCpsr (noSpsr : Unpredictable) (s : State) : Except Fault State :=
  match s.spsrOf s.cpsr.mode with
  | none => .error (.unpredictable noSpsr)
  | some p =>
    match p.restored with
    | none => .error (.unpredictable .badMode)
    | some c => .ok (s.setCpsr c)

/-- The end of an exception return: the CPSR is restored and the pc written, aligned for the restored state
(R213, R324, R511). -/
def returnFromException (noSpsr : Unpredictable) (target : Word) (s : State) : Except Fault State :=
  match restoreCpsr noSpsr s with
  | .error e => .error e
  | .ok s' => .ok (s'.setPc (alignFor s'.cpsr.t target))

-- The host's actions (R24, R601)

/-- A byte held for the I/O region (R88). -/
def isIoCell (c : Host.Cell) : Bool := 0x04000000 ≤ c.1 && c.1 < 0x04000400

/-- The host's `reset()`, between iterations (R601): everything R600 resets is reset, the plain-storage I/O registers
among it; RAM and the images keep their bytes, which R602 allows, and the free values go on being fresh. -/
def hostReset (s : State) : State :=
  { State.resetWith s.params none [] with
    params := s.params, mem := s.mem.filter (fun c => !isIoCell c), draws := s.draws, iteration := s.iteration }

/-- The host's `write_input` (R565). -/
def hostWriteInput (mask : BitVec 10) (s : State) : State :=
  { s with params := { s.params with input := some mask } }

/-- The nFIQ input set from outside, for the polls from now on (R521, D13). -/
def hostSetFiqLine (level : Bool) (s : State) : State :=
  { s with params := { s.params with fiqLine := some level } }

end Sys2Proof.Machine
end

