-- ==== Sys2Proof/Machine/Io.lean ====
section
/-!
DEFINITION. The I/O registers of 0x04000000-0x040003FF (spec/60_exceptions.md section 9, rule R580): which register a
byte belongs to, what a read of that byte gives, and what a write of it does within the write (spec/20_memory.md rule
R93).  Accesses reach a register byte by byte; reads have no side effect.
-/

namespace Sys2Proof.Machine

/-- Replace byte `k` of a value. -/
def putByte {n : Nat} (v : BitVec n) (k : Nat) (b : Byte) : BitVec n :=
  (v &&& ~~~((0xFF#n) <<< (8 * k))) ||| (b.zeroExtend n <<< (8 * k))

/-- Byte `k` of a value. -/
def getByte {n : Nat} (v : BitVec n) (k : Nat) : Byte := v.extractLsb' (8 * k) 8

/-- The registers of R580.  `n` is a timer or DMA channel; an address not listed is `openBus`. -/
inductive IoReg where
  | plain | dispstat | vcount | soundCntH
  | fifoA | fifoB
  | dmaSad (n : Fin 4) | dmaDad (n : Fin 4) | dmaCntL (n : Fin 4) | dmaCntH (n : Fin 4)
  | tmCntL (n : Fin 4) | tmCntH (n : Fin 4)
  | keyinput | keycnt | ie | iflags | ime
  /-- The halfword at 0x0400020A: reads 0, writes ignored (R525). -/
  | imeUnused
  | haltcnt
  | openBus
  deriving DecidableEq, Repr

/-- The register a DMA byte belongs to, 12 bytes to a channel from 0xB0 (R540), and the byte's place in it. -/
def dmaRegAt (off : Nat) : IoReg × Nat :=
  let n : Fin 4 := Fin.ofNat 4 ((off - 0xB0) / 12)
  let k := (off - 0xB0) % 12
  if k < 4 then (.dmaSad n, k)
  else if k < 8 then (.dmaDad n, k - 4)
  else if k < 10 then (.dmaCntL n, k - 8)
  else (.dmaCntH n, k - 10)

/-- The register a timer byte belongs to, 4 bytes to a timer from 0x100 (R535), and the byte's place in it. -/
def timerRegAt (off : Nat) : IoReg × Nat :=
  let n : Fin 4 := Fin.ofNat 4 ((off - 0x100) / 4)
  let k := (off - 0x100) % 4
  if k < 2 then (.tmCntL n, k) else (.tmCntH n, k - 2)

/-- The register of an offset into the I/O region and the byte's place in it: the table of R580. -/
def ioRegAt (off : Nat) : IoReg × Nat :=
  if off < 0x04 then (.plain, off)
  else if off < 0x06 then (.dispstat, off - 0x04)
  else if off < 0x08 then (.vcount, off - 0x06)
  else if off < 0x56 then (.plain, off)
  else if off < 0x60 then (.openBus, 0)
  else if off < 0x82 then (.plain, off)
  else if off < 0x84 then (.soundCntH, off - 0x82)
  else if off < 0x86 then (.plain, off)
  else if off < 0x88 then (.openBus, 0)
  else if off < 0xA0 then (.plain, off)
  else if off < 0xA4 then (.fifoA, off - 0xA0)
  else if off < 0xA8 then (.fifoB, off - 0xA4)
  else if off < 0xB0 then (.openBus, 0)
  else if off < 0xE0 then dmaRegAt off
  else if off < 0x100 then (.openBus, 0)
  else if off < 0x110 then timerRegAt off
  else if off < 0x120 then (.openBus, 0)
  else if off < 0x130 then (.plain, off)
  else if off < 0x132 then (.keyinput, off - 0x130)
  else if off < 0x134 then (.keycnt, off - 0x132)
  else if off < 0x160 then (.plain, off)
  else if off < 0x200 then (.openBus, 0)
  else if off < 0x202 then (.ie, off - 0x200)
  else if off < 0x204 then (.iflags, off - 0x202)
  else if off < 0x206 then (.plain, off)
  else if off < 0x208 then (.openBus, 0)
  else if off < 0x20A then (.ime, off - 0x208)
  else if off < 0x20C then (.imeUnused, 0)
  else if off < 0x300 then (.openBus, 0)
  else if off < 0x301 then (.plain, off)
  else if off < 0x302 then (.haltcnt, 0)
  else (.openBus, 0)

/-- The memory cell of a plain-storage byte. -/
def ioCell (off : Nat) : Nat := 0x04000000 + off

-- Register values

/-- The VBlank flag: lines 160-226 (R550). -/
def Ppu.inVblank (p : Ppu) : Bool := 160 ≤ p.line.val && p.line.val ≤ 226

/-- The HBlank flag: dots 240-307 of lines 0-159 (R550, D25). -/
def Ppu.inHblank (p : Ppu) : Bool := p.line.val < 160 && 240 ≤ p.dot.val

/-- The VCount-match flag (R550). -/
def Devices.vcountMatch (d : Devices) : Bool := d.ppu.line.val == d.dispstat.lyc.toNat

/-- `DISPSTAT` as read (R550). -/
def Devices.dispstatHalf (d : Devices) : Half :=
  d.dispstat.lyc ++ 0#2 ++ BitVec.ofBool d.dispstat.vcountIrq ++ BitVec.ofBool d.dispstat.hblankIrq ++
    BitVec.ofBool d.dispstat.vblankIrq ++ BitVec.ofBool d.vcountMatch ++
    BitVec.ofBool d.ppu.inHblank ++ BitVec.ofBool d.ppu.inVblank

/-- `VCOUNT` as read (R551). -/
def Devices.vcountHalf (d : Devices) : Half := BitVec.ofNat 16 d.ppu.line.val

/-- `TMnCNT_H` as read (R535). -/
def Timer.ctlHalf (t : Timer) : Half :=
  0#8 ++ BitVec.ofBool t.enable ++ BitVec.ofBool t.irq ++ 0#3 ++ BitVec.ofBool t.cascade ++ t.prescaler

/-- `KEYINPUT` as read: 0 is pressed (R565). -/
def State.keyinputHalf (s : State) : Half := 0#6 ++ ~~~s.buttons

/-- `KEYCNT` as read (R565). -/
def KeyCnt.half (k : KeyCnt) : Half := BitVec.ofBool k.all ++ BitVec.ofBool k.irq ++ 0#4 ++ k.select

/-- A byte of the I/O region as read, or `none` for open bus (R86, R580). -/
def ioRead (s : State) (off : Nat) : Option Byte :=
  match ioRegAt off with
  | (.plain, _) => some (s.mem.read (ioCell off))
  | (.soundCntH, _) => some (s.mem.read (ioCell off))
  | (.dispstat, k) => some (getByte s.dev.dispstatHalf k)
  | (.vcount, k) => some (getByte s.dev.vcountHalf k)
  | (.dmaCntH n, k) => some (getByte s.dev.dma[n].ctl k)
  | (.tmCntL n, k) => some (getByte s.dev.timers[n].counter k)
  | (.tmCntH n, k) => some (getByte s.dev.timers[n].ctlHalf k)
  | (.keyinput, k) => some (getByte s.keyinputHalf k)
  | (.keycnt, k) => some (getByte s.dev.keycnt.half k)
  | (.ie, k) => some (getByte (s.dev.ie.zeroExtend 16) k)
  | (.iflags, k) => some (getByte (s.dev.iflags.zeroExtend 16) k)
  | (.ime, k) => some (getByte ((BitVec.ofBool s.dev.ime).zeroExtend 16) k)
  | (.imeUnused, _) => some 0
  | (.fifoA, _) | (.fifoB, _) => none
  | (.dmaSad _, _) | (.dmaDad _, _) | (.dmaCntL _, _) => none
  | (.haltcnt, _) => none
  | (.openBus, _) => none

-- Register writes

/-- Replace the devices. -/
def State.setDev (s : State) (d : Devices) : State := { s with dev := d }

/-- Replace memory. -/
def State.setMem (s : State) (m : Memory) : State := { s with mem := m }

/-- Replace one timer. -/
def Devices.setTimer (d : Devices) (n : Fin 4) (t : Timer) : Devices := { d with timers := d.timers.set n t }

/-- Replace one DMA channel. -/
def Devices.setDma (d : Devices) (n : Fin 4) (c : DmaChannel) : Devices := { d with dma := d.dma.set n c }

/-- A write to a byte of `DISPSTAT`; bits 2:0, 6 and 7 ignore it (R550). -/
def DispStat.writeByte (r : DispStat) (k : Nat) (b : Byte) : DispStat :=
  if k = 0 then
    { r with vblankIrq := b.getLsbD 3, hblankIrq := b.getLsbD 4, vcountIrq := b.getLsbD 5 }
  else { r with lyc := b }

/-- A write to `TMnCNT_H`; a start edge loads the counter and clears the prescaler count (R535, R537). -/
def Timer.writeCtl (t : Timer) (k : Nat) (b : Byte) : Timer :=
  if k = 0 then
    let t' := { t with
      prescaler := b.extractLsb' 0 2, cascade := b.getLsbD 2, irq := b.getLsbD 6, enable := b.getLsbD 7 }
    if b.getLsbD 7 && !t.enable then { t' with counter := t.reload, count := 0 } else t'
  else t

/-- The channel is armed (R541). -/
def DmaChannel.armed (c : DmaChannel) : Bool := c.ctl.getLsbD 15

/-- The start timing, bits 13:12 (R540). -/
def DmaChannel.timing (c : DmaChannel) : BitVec 2 := c.ctl.extractLsb' 12 2

/-- The destination control, bits 6:5 (R540). -/
def DmaChannel.dstCtl (c : DmaChannel) : BitVec 2 := c.ctl.extractLsb' 5 2

/-- The source control, bits 8:7 (R540). -/
def DmaChannel.srcCtl (c : DmaChannel) : BitVec 2 := c.ctl.extractLsb' 7 2

/-- The latched source: 27 bits for DMA0, 28 for DMA1 to DMA3 (R540). -/
def DmaChannel.latchSrc (c : DmaChannel) (n : Fin 4) : Word :=
  c.sad &&& (if n = 0 then 0x07FFFFFF else 0x0FFFFFFF)

/-- The latched destination: 27 bits for DMA0 to DMA2, 28 for DMA3 (R540). -/
def DmaChannel.latchDst (c : DmaChannel) (n : Fin 4) : Word :=
  c.dad &&& (if n = 3 then 0x0FFFFFFF else 0x07FFFFFF)

/-- The latched count: 14 bits for DMA0 to DMA2, 16 for DMA3, 0 meaning the maximum (R540). -/
def DmaChannel.latchCnt (c : DmaChannel) (n : Fin 4) : Nat :=
  if n = 3 then (if c.cntL = 0 then 0x10000 else c.cntL.toNat)
  else
    let k := (c.cntL.extractLsb' 0 14).toNat
    if k = 0 then 0x4000 else k

/-- The bits of `DMAnCNT_H` that exist: bits 4:0 are unused, and bit 11 exists on DMA3 only (R540). -/
def dmaCtlMask (n : Fin 4) : Half := if n = 3 then 0xFFE0 else 0xF7E0

/-- A write that makes `DMAnCNT_H` hold `ctl` (R541): a 0 to 1 change of bit 15 arms and latches; bit 15 kept at 1
changes the control bits only; bit 15 = 0 disarms.  An armed channel whose timing becomes immediate is due at once
(R542, log entry 17). -/
def DmaChannel.writeCtl (c : DmaChannel) (n : Fin 4) (ctl : Half) : DmaChannel :=
  let c' := { c with ctl := ctl &&& dmaCtlMask n }
  if !c'.armed then { c' with due := false }
  else if !c.armed then
    { c' with src := c'.latchSrc n, dst := c'.latchDst n, cnt := c'.latchCnt n, due := c'.timing == 0 }
  else { c' with due := c.due || (c'.timing == 0 && c.timing != 0) }

/-- Push one byte; a push into a full FIFO is dropped (R560). -/
def Fifo.push (q : Fifo) (b : Byte) : Fifo :=
  if q.bytes.length < 32 then { q with bytes := q.bytes ++ [b] } else q

/-- Empty the queue (R561). -/
def Fifo.clear (q : Fifo) : Fifo := { q with bytes := [] }

/-- A write to a byte of `KEYCNT`; bits 13:10 are unused (R565). -/
def KeyCnt.writeByte (r : KeyCnt) (k : Nat) (b : Byte) : KeyCnt :=
  if k = 0 then { r with select := r.select.extractLsb' 8 2 ++ b }
  else { r with select := b.extractLsb' 0 2 ++ r.select.extractLsb' 0 8, irq := b.getLsbD 6, all := b.getLsbD 7 }

/-- A write to a byte of `SOUNDCNT_H`: bits 11 and 15, written as 1, empty a FIFO and read 0; the other bits are stored
(R561). -/
def writeSoundCntH (s : State) (k : Nat) (b : Byte) : State :=
  if k = 0 then s.setMem (s.mem.write (ioCell 0x82) b)
  else
    let d1 := if b.getLsbD 3 then { s.dev with fifoA := s.dev.fifoA.clear } else s.dev
    let d2 := if b.getLsbD 7 then { d1 with fifoB := d1.fifoB.clear } else d1
    (s.setMem (s.mem.write (ioCell 0x83) (b &&& 0x77#8))).setDev d2

/-- A write to a byte of the I/O region, its side effects done before it returns (R93, R580). -/
def ioWrite (s : State) (off : Nat) (b : Byte) : State :=
  let d := s.dev
  match ioRegAt off with
  | (.plain, _) => s.setMem (s.mem.write (ioCell off) b)
  | (.soundCntH, k) => writeSoundCntH s k b
  | (.dispstat, k) => s.setDev { d with dispstat := d.dispstat.writeByte k b }
  | (.vcount, _) => s
  | (.fifoA, _) => s.setDev { d with fifoA := d.fifoA.push b }
  | (.fifoB, _) => s.setDev { d with fifoB := d.fifoB.push b }
  | (.dmaSad n, k) => s.setDev (d.setDma n { d.dma[n] with sad := putByte d.dma[n].sad k b })
  | (.dmaDad n, k) => s.setDev (d.setDma n { d.dma[n] with dad := putByte d.dma[n].dad k b })
  | (.dmaCntL n, k) => s.setDev (d.setDma n { d.dma[n] with cntL := putByte d.dma[n].cntL k b })
  | (.dmaCntH n, k) => s.setDev (d.setDma n (d.dma[n].writeCtl n (putByte d.dma[n].ctl k b)))
  | (.tmCntL n, k) => s.setDev (d.setTimer n { d.timers[n] with reload := putByte d.timers[n].reload k b })
  | (.tmCntH n, k) => s.setDev (d.setTimer n (d.timers[n].writeCtl k b))
  | (.keyinput, _) => s
  | (.keycnt, k) => s.setDev { d with keycnt := d.keycnt.writeByte k b }
  | (.ie, k) => s.setDev { d with ie := (putByte (d.ie.zeroExtend 16) k b).extractLsb' 0 14 }
  | (.iflags, k) =>
    s.setDev { d with iflags := d.iflags &&& ~~~((b.zeroExtend 16 <<< (8 * k)).extractLsb' 0 14) }
  | (.ime, k) => if k = 0 then s.setDev { d with ime := b.getLsbD 0 } else s
  | (.imeUnused, _) => s
  | (.haltcnt, _) => s.setDev { d with halted := true }
  | (.openBus, _) => s

/-- Set a request bit of `IF`, as a device does (R524). -/
def Devices.request (d : Devices) (k : Nat) : Devices :=
  { d with iflags := d.iflags ||| (1#14 <<< k) }

/-- `SOUNDCNT_H` as stored (R561). -/
def State.soundCntHigh (s : State) : Byte := s.mem.read (ioCell 0x83)

/-- `SOUNDCNT_X` bit 7, the master enable of the FIFOs (R561). -/
def State.soundMaster (s : State) : Bool := (s.mem.read (ioCell 0x84)).getLsbD 7

/-- The BG/OBJ boundary of VRAM: it depends on the display mode, `DISPCNT` bits 2:0 (R90). -/
def State.objStart (s : State) : Nat :=
  let mode := ((s.mem.read (ioCell 0)).extractLsb' 0 3).toNat
  if 3 ≤ mode && mode ≤ 5 then 0x14000 else 0x10000

end Sys2Proof.Machine
end

