-- ==== Sys2Proof/Machine/Bus.lean ====
section
/-!
DEFINITION. The bus (spec/20_memory.md): decoding an address by the map of rule R88, reads and writes of 8, 16 and 32 bits assembled
from bytes in little-endian order, and the CPU's own reads and writes with their hazard and DMA cases
(spec/70_reset_and_hazards.md rule R612, spec/60_exceptions.md rule R541).
-/

namespace Sys2Proof.Machine

/-- The row of a map that holds an address. -/
def busRow (bus : Bus) (a : Word) : Option MapRow := bus.find? (fun r => r.first ≤ a.toNat && a.toNat ≤ r.last)

/-- The region of an address (R88): decoding is total. -/
def region (bus : Bus) (a : Word) : Region :=
  match busRow bus a with
  | some r => r.region
  | none => .unmapped

/-- The offset into VRAM's 96 KB: mirrored every 128 KB, the last 32 KB of a window folded onto the 32 KB before
(R88). -/
def vramFold (k : Nat) : Nat :=
  let o := k % 0x20000
  if o < 0x18000 then o else o - 0x8000

/-- The place in a region's storage that is reached `k` bytes into it: each region repeats at its own mirror (R88). -/
def regionPlace (r : Region) (k : Nat) : Nat :=
  match r with
  | .bios => k % 0x4000
  | .ewram => k % 0x40000
  | .iwram => k % 0x8000
  | .io => k % 0x400
  | .palette => k % 0x400
  | .vram => vramFold k
  | .oam => k % 0x400
  | .rom => k % 0x2000000
  | .save => k
  | .unmapped => k

/-- Where a region's storage begins in `State.mem`: its base address in R88.  Save memory and unmapped space have none,
and stand past all addresses. -/
def regionBase (r : Region) : Nat :=
  match r with
  | .bios => 0x00000000
  | .ewram => 0x02000000
  | .iwram => 0x03000000
  | .io => 0x04000000
  | .palette => 0x05000000
  | .vram => 0x06000000
  | .oam => 0x07000000
  | .rom => 0x08000000
  | .save => 0x100000000
  | .unmapped => 0x200000000

/-- The place in its region's storage that an address reaches (R88). -/
def regionOffset (bus : Bus) (a : Word) : Nat :=
  match busRow bus a with
  | some r => regionPlace r.region (r.start + (a.toNat - r.first))
  | none => a.toNat

/-- The cell an address reaches. -/
def cell (bus : Bus) (a : Word) : Nat := regionBase (region bus a) + regionOffset bus a

/-- The map the machine decodes addresses by. -/
abbrev State.bus (s : State) : Bus := s.params.bus

/-- The width of an access (R95). -/
inductive Width where
  | byte | half | word
  deriving DecidableEq, Repr

/-- The bytes of a width. -/
def Width.bytes : Width → Nat
  | .byte => 1
  | .half => 2
  | .word => 4

/-- `Align(a, n)` (R12). -/
def Width.align (w : Width) (a : Word) : Word :=
  match w with
  | .byte => a
  | .half => align2 a
  | .word => align4 a

-- Reads

/-- One byte as read (R86, R88, R91, R92, R603); `fromBios` says that the instruction being executed lies in the BIOS. -/
def readByte (fromBios : Bool) (a : Word) (s : State) : Byte × State :=
  match region s.bus a with
  | .ewram | .iwram | .palette | .vram | .oam => (s.mem.read (cell s.bus a), s)
  | .bios => if fromBios && s.params.biosImage then (s.mem.read (cell s.bus a), s) else s.drawByte
  | .rom => if regionOffset s.bus a < s.params.romSize then (s.mem.read (cell s.bus a), s) else s.drawByte
  | .io =>
    match ioRead s (regionOffset s.bus a) with
    | some b => (b, s)
    | none => s.drawByte
  | .save | .unmapped => s.drawByte

/-- `read(address, width)`, zero-extended, the bytes in ascending order (R14, R80, R82). -/
def busRead (fromBios : Bool) (a : Word) (w : Width) (s : State) : Word × State :=
  match w with
  | .byte =>
    let (b0, s0) := readByte fromBios a s
    (b0.zeroExtend 32, s0)
  | .half =>
    let (b0, s0) := readByte fromBios a s
    let (b1, s1) := readByte fromBios (a + 1) s0
    ((b1 ++ b0).zeroExtend 32, s1)
  | .word =>
    let (b0, s0) := readByte fromBios a s
    let (b1, s1) := readByte fromBios (a + 1) s0
    let (b2, s2) := readByte fromBios (a + 2) s1
    let (b3, s3) := readByte fromBios (a + 3) s2
    (b3 ++ b2 ++ b1 ++ b0, s3)

-- Writes

/-- One byte of a write, where no byte rule of R90 applies: ROM, BIOS and unmapped addresses ignore it (R87), and a
save-memory write has no effect outside that region, of which nothing is stored (R92). -/
def writeByte (a : Word) (b : Byte) (s : State) : State :=
  match region s.bus a with
  | .ewram | .iwram | .palette | .vram | .oam => s.setMem (s.mem.write (cell s.bus a) b)
  | .io => ioWrite s (regionOffset s.bus a) b
  | .bios | .rom | .save | .unmapped => s

/-- What an 8-bit write does (R90). -/
inductive ByteWrite where
  /-- The byte is written. -/
  | single
  /-- The byte is written into both bytes of its aligned halfword. -/
  | both
  /-- The write is ignored. -/
  | ignored
  deriving DecidableEq, Repr

/-- The byte rule of an address (R90). -/
def byteWriteAt (a : Word) (s : State) : ByteWrite :=
  match region s.bus a with
  | .palette => .both
  | .vram => if regionOffset s.bus a < s.objStart then .both else .ignored
  | .oam => .ignored
  | .bios | .ewram | .iwram | .io | .rom | .save | .unmapped => .single

/-- `write(address, width, value)`, the bytes in ascending order (R14, R80, R82, R90). -/
def busWrite (a : Word) (w : Width) (v : Word) (s : State) : State :=
  let b0 := getByte v 0
  match w with
  | .byte =>
    match byteWriteAt a s with
    | .single => writeByte a b0 s
    | .both => writeByte (align2 a + 1) b0 (writeByte (align2 a) b0 s)
    | .ignored => s
  | .half => writeByte (a + 1) (getByte v 1) (writeByte a b0 s)
  | .word =>
    writeByte (a + 3) (getByte v 3)
      (writeByte (a + 2) (getByte v 2) (writeByte (a + 1) (getByte v 1) (writeByte a b0 s)))

/-- The cells a write stores to: its bytes, or for a doubled byte both bytes of the halfword (R82, R90). -/
def storedCells (a : Word) (w : Width) (s : State) : List Nat :=
  match w with
  | .byte =>
    match byteWriteAt a s with
    | .single => [cell s.bus a]
    | .both => [cell s.bus (align2 a), cell s.bus (align2 a + 1)]
    | .ignored => []
  | .half => [cell s.bus a, cell s.bus (a + 1)]
  | .word => [cell s.bus a, cell s.bus (a + 1), cell s.bus (a + 2), cell s.bus (a + 3)]

-- The CPU's accesses

/-- The instruction being executed lies in the BIOS (R91). -/
def State.inBios (s : State) : Bool := region s.bus s.pc == .bios

/-- `MemRead(addr, n)` by the CPU; the address is aligned by the caller (R14). -/
def cpuRead (a : Word) (w : Width) (s : State) : Word × State := busRead s.inBios a w s

/-- The cells of `W`, the two instruction slots after the executing one (R612). -/
def prefetchWindow (s : State) : List Nat :=
  if s.cpsr.t then [2, 3, 4, 5].map (fun k => cell s.bus (s.pc + BitVec.ofNat 32 k))
  else [4, 5, 6, 7, 8, 9, 10, 11].map (fun k => cell s.bus (s.pc + BitVec.ofNat 32 k))

/-- A CPU store reaches `W` (R612), by the cells both name (log entry 27). -/
def hitsPrefetch (a : Word) (w : Width) (s : State) : Bool :=
  let window := prefetchWindow s
  match w with
  | .byte =>
    match byteWriteAt a s with
    | .both => window.contains (cell s.bus (align2 a)) || window.contains (cell s.bus (align2 a + 1))
    | .single | .ignored => window.contains (cell s.bus a)
  | .half => (storedCells a .half s).any window.contains
  | .word => (storedCells a .word s).any window.contains

/-- The UNPREDICTABLE case of a channel's control register, if it is enabled with the offending field (R540, R541).
Where both hold, `dma-drq` is reported.  DESIGN CHOICE, log entry 25. -/
def DmaChannel.case (c : DmaChannel) (n : Fin 4) (strict : Bool) : Option Unpredictable :=
  if c.armed && n == 3 && c.ctl.getLsbD 11 then some .dmaDrq
  else if c.armed && c.srcCtl == 3 && strict then some .dmaSrcCtl3
  else none

/-- The address reaches a byte of `DMAnCNT_H` (R540). -/
def reachesDmaCtl (bus : Bus) (n : Fin 4) (a : Word) : Bool :=
  region bus a == .io && (ioRegAt (regionOffset bus a)).1 == .dmaCntH n

/-- The access reaches a byte of `DMAnCNT_H` (R540). -/
def touchesDmaCtl (bus : Bus) (n : Fin 4) (a : Word) (w : Width) : Bool :=
  (List.range w.bytes).any (fun k => reachesDmaCtl bus n (a + BitVec.ofNat 32 k))

/-- The case a CPU store leaves in the control registers it reached (R541); a transfer's writes raise none (log entry
36). -/
def dmaCaseOf (a : Word) (w : Width) (s : State) : Option Unpredictable :=
  ([0, 1, 2, 3] : List (Fin 4)).findSome? (fun n =>
    if touchesDmaCtl s.bus n a w then s.dev.dma[n].case n s.strict else none)

/-- `MemWrite(addr, n, v)` by the CPU (R14), with the hazard of R612 and the cases of R541. -/
def cpuWrite (a : Word) (w : Width) (v : Word) (s : State) : Except Fault State :=
  if s.strict && hitsPrefetch a w s then .error (.hazard .smcPrefetch)
  else
    let s' := busWrite a w v s
    match dmaCaseOf a w s' with
    | some c => .error (.unpredictable c)
    | none => .ok s'

/-- The loaded word of LDR, SWP and their Thumb forms: the aligned word rotated right by the byte offset (R301). -/
def loadRotated (a : Word) (s : State) : Word × State :=
  let (v, s') := cpuRead (align4 a) .word s
  (v.rotateRight (8 * (a.extractLsb' 0 2).toNat), s')

/-- A word store to the aligned address (R302). -/
def storeAligned (a : Word) (v : Word) (s : State) : Except Fault State := cpuWrite (align4 a) .word v s

/-- The zero-extended halfword, rotated right by 8 at an odd address (R311). -/
def loadHalfRotated (a : Word) (s : State) : Word × State :=
  let (v, s') := cpuRead (align2 a) .half s
  (if a.getLsbD 0 then v.rotateRight 8 else v, s')

/-- The sign-extended byte (R313). -/
def loadByteSigned (a : Word) (s : State) : Word × State :=
  let (v, s') := cpuRead a .byte s
  ((v.extractLsb' 0 8).signExtend 32, s')

/-- The sign-extended halfword; at an odd address the sign-extended byte (R314). -/
def loadHalfSigned (a : Word) (s : State) : Word × State :=
  if a.getLsbD 0 then loadByteSigned a s
  else
    let (v, s') := cpuRead a .half s
    ((v.extractLsb' 0 16).signExtend 32, s')

/-- A halfword store to the aligned address (R312). -/
def storeHalfAligned (a : Word) (v : Word) (s : State) : Except Fault State := cpuWrite (align2 a) .half v s

end Sys2Proof.Machine
end

