-- ==== Sys2Proof/Machine/Flags.lean ====
section
/-!
DEFINITION. Condition evaluation, addition with carry, the sixteen data-processing operations and every flag rule
(spec/00_scope.md rule R17, spec/40_arm_dataproc.md sections 1, 3 and 4, spec/44_thumb_alu.md rule R400).
-/

namespace Sys2Proof.Machine

/-- `ConditionPassed(cond)` (R200); `nv` never passes and is R201's case before this is asked. -/
def condPassed (c : Cond) (p : Cpsr) : Bool :=
  match c with
  | .eq => p.z
  | .ne => !p.z
  | .cs => p.c
  | .cc => !p.c
  | .mi => p.n
  | .pl => !p.n
  | .vs => p.v
  | .vc => !p.v
  | .hi => p.c && !p.z
  | .ls => !p.c || p.z
  | .ge => p.n == p.v
  | .lt => p.n != p.v
  | .gt => !p.z && p.n == p.v
  | .le => p.z || p.n != p.v
  | .al => true
  | .nv => false

/-- A result with the carry and overflow that go with it. -/
structure AluResult where
  value : Word
  carry : Bool
  overflow : Bool
  deriving DecidableEq, Repr

/-- `AddWithCarry(a, b, c)` (R17). -/
def addWithCarry (a b : Word) (c : Bool) : AluResult :=
  let cin := c.toNat
  let exact : Int := a.toInt + b.toInt + (cin : Int)
  { value := a + b + BitVec.ofNat 32 cin
    carry := decide (2 ^ 32 ≤ a.toNat + b.toNat + cin)
    overflow := decide (exact < -2 ^ 31) || decide (2 ^ 31 ≤ exact) }

/-- A shifter operand and its carry out (R202). -/
structure Shifted where
  value : Word
  carry : Bool
  deriving DecidableEq, Repr

/-- The sixteen data-processing operations (R135). -/
inductive DpOp where
  | and | eor | sub | rsb | add | adc | sbc | rsc | tst | teq | cmp | cmn | orr | mov | bic | mvn
  deriving DecidableEq, Repr

/-- TST, TEQ, CMP and CMN write no register (R213). -/
def DpOp.writesRd : DpOp → Bool
  | .tst | .teq | .cmp | .cmn => false
  | .and | .eor | .sub | .rsb | .add | .adc | .sbc | .rsc | .orr | .mov | .bic | .mvn => true

/-- MOV and MVN read no first operand (R233, R235). -/
def DpOp.readsRn : DpOp → Bool
  | .mov | .mvn => false
  | .and | .eor | .sub | .rsb | .add | .adc | .sbc | .rsc | .tst | .teq | .cmp | .cmn | .orr | .bic => true

/-- The result of a logical operation: C is the shifter's carry, V is unchanged (R214). -/
def logical (value : Word) (op2 : Shifted) (p : Cpsr) : AluResult := ⟨value, op2.carry, p.v⟩

/-- The operation `f(n, op2, CPSR.C)` of each rule R220 to R235, with the C and V that S = 1 sets (R214, R215). -/
def DpOp.apply (op : DpOp) (n : Word) (op2 : Shifted) (p : Cpsr) : AluResult :=
  match op with
  | .and | .tst => logical (n &&& op2.value) op2 p
  | .eor | .teq => logical (n ^^^ op2.value) op2 p
  | .sub | .cmp => addWithCarry n (~~~op2.value) true
  | .rsb => addWithCarry op2.value (~~~n) true
  | .add | .cmn => addWithCarry n op2.value false
  | .adc => addWithCarry n op2.value p.c
  | .sbc => addWithCarry n (~~~op2.value) p.c
  | .rsc => addWithCarry op2.value (~~~n) p.c
  | .orr => logical (n ||| op2.value) op2 p
  | .mov => logical op2.value op2 p
  | .bic => logical (n &&& ~~~op2.value) op2 p
  | .mvn => logical (~~~op2.value) op2 p

/-- Bit 31 of a result (R51). -/
def isNegative (v : Word) : Bool := v.getLsbD 31

/-- A result is zero (R51). -/
def isZero (v : Word) : Bool := v == 0#32

/-- The flags of a result with its carry and overflow (R214, R215, R400 NZCV and NZ with the shifter's C). -/
def State.flagsOf (s : State) (r : AluResult) : State :=
  s.setFlags (isNegative r.value) (isZero r.value) r.carry r.overflow

/-- N and Z from a result, C and V unchanged (R400). -/
def State.flagsNZ (s : State) (v : Word) : State :=
  s.setFlags (isNegative v) (isZero v) s.cpsr.c s.cpsr.v

/-- N, Z and C, V unchanged (R214, R400). -/
def State.flagsNZC (s : State) (r : Shifted) : State :=
  s.setFlags (isNegative r.value) (isZero r.value) r.carry s.cpsr.v

/-- The flags after MUL, MLA and Thumb MUL: C is a free bit, V unchanged (R260, R261, R425, D22).  93_implementation_defined
section 4 can be read to leave V of the Thumb MUL open as well; the model follows R425.  DESIGN CHOICE, log entry 8. -/
def State.flagsMul (s : State) (v : Word) : State :=
  let (c, s') := s.drawBit
  s'.setFlags (isNegative v) (isZero v) c s'.cpsr.v

/-- The flags after a long multiply, over all 64 bits: C and V are free bits (R262, D22). -/
def State.flagsMulLong (s : State) (p : BitVec 64) : State :=
  let (c, s1) := s.drawBit
  let (v, s2) := s1.drawBit
  s2.setFlags (p.getLsbD 63) (p == 0#64) c v

end Sys2Proof.Machine
end

