-- ==== Sys2Proof/Machine/Operands.lean ====
section
/-!
DEFINITION. Every operand form: the shifter (spec/40_arm_dataproc.md section 2), the load and store offsets and
addressing modes (spec/42_arm_loadstore.md sections 1 to 3), branch offsets (spec/30_encoding.md rules R158, R162) and
register lists.
-/

namespace Sys2Proof.Machine

/-- `ASR(m, n)` for any n; 32 and more give the sign in every bit (R12, R206). -/
def asrWord (m : Word) (n : Nat) : Word := m.sshiftRight n

/-- The immediate operand of A1 and of MSR (R155, R203). -/
def immShifted (rot : BitVec 4) (imm8 : BitVec 8) (carry : Bool) : Shifted :=
  let v : Word := (imm8.zeroExtend 32).rotateRight (2 * rot.toNat)
  ⟨v, if rot = 0 then carry else v.getLsbD 31⟩

/-- A register shifted by an immediate (R204-R207): amount 0 means 32 for LSR and ASR and RRX for ROR. -/
def shiftByImm (sh : Shift) (m : Word) (amt : BitVec 5) (carry : Bool) : Shifted :=
  let k := amt.toNat
  match sh with
  | .lsl => if k = 0 then ⟨m, carry⟩ else ⟨m <<< k, m.getLsbD (32 - k)⟩
  | .lsr => if k = 0 then ⟨0, m.getLsbD 31⟩ else ⟨m >>> k, m.getLsbD (k - 1)⟩
  | .asr => if k = 0 then ⟨asrWord m 32, m.getLsbD 31⟩ else ⟨asrWord m k, m.getLsbD (k - 1)⟩
  | .ror =>
    if k = 0 then ⟨(BitVec.ofBool carry).zeroExtend 32 <<< 31 ||| m >>> 1, m.getLsbD 0⟩
    else ⟨m.rotateRight k, m.getLsbD (k - 1)⟩

/-- A register shifted by the low byte of a register (R208-R211). -/
def shiftByReg (sh : Shift) (m : Word) (amount : BitVec 8) (carry : Bool) : Shifted :=
  let k := amount.toNat
  if k = 0 then ⟨m, carry⟩
  else
    match sh with
    | .lsl =>
      if k < 32 then ⟨m <<< k, m.getLsbD (32 - k)⟩
      else if k = 32 then ⟨0, m.getLsbD 0⟩ else ⟨0, false⟩
    | .lsr =>
      if k < 32 then ⟨m >>> k, m.getLsbD (k - 1)⟩
      else if k = 32 then ⟨0, m.getLsbD 31⟩ else ⟨0, false⟩
    | .asr => if k < 32 then ⟨asrWord m k, m.getLsbD (k - 1)⟩ else ⟨asrWord m 32, m.getLsbD 31⟩
    | .ror =>
      let r := k % 32
      if r = 0 then ⟨m, m.getLsbD 31⟩ else ⟨m.rotateRight r, m.getLsbD (r - 1)⟩

/-- The low byte of a register, the amount of a shift by register (R156). -/
def lowByte (v : Word) : BitVec 8 := v.extractLsb' 0 8

/-- An address with the write-back that goes with it. -/
structure Address where
  addr : Word
  /-- The value written back, when `writeBack`. -/
  offsetAddr : Word
  writeBack : Bool
  deriving DecidableEq, Repr

/-- Addressing modes 2 and 3 (R300, R310). -/
def addressOf (base offset : Word) (p u w : Bool) : Address :=
  let offsetAddr := if u then base + offset else base - offset
  if p then ⟨offsetAddr, offsetAddr, w⟩ else ⟨base, offsetAddr, true⟩

/-- The immediate offset of a word or byte transfer (R157). -/
def offset12 (imm12 : BitVec 12) : Word := imm12.zeroExtend 32

/-- The immediate offset of a halfword transfer (R157). -/
def offsetHalf (immH immL : BitVec 4) : Word := (immH ++ immL).zeroExtend 32

/-- The scaled register offset of a word or byte transfer (R157, R300). -/
def offsetReg (s : State) (rm : Reg) (sh : Shift) (amt : BitVec 5) : Word :=
  (shiftByImm sh (s.armX rm) amt s.cpsr.c).value

/-- Addressing mode 4 (R320): the first address of `k` registers. -/
def blockStart (base : Word) (p u : Bool) (k : Nat) : Word :=
  let size := BitVec.ofNat 32 (4 * k)
  match p, u with
  | false, true => base
  | true, true => base + 4
  | false, false => base - size + 4
  | true, false => base - size

/-- Addressing mode 4 (R320): the write-back value. -/
def blockWriteBack (base : Word) (u : Bool) (k : Nat) : Word :=
  let size := BitVec.ofNat 32 (4 * k)
  if u then base + size else base - size

/-- The registers of a list, ascending (R145, R320). -/
def regList {n : Nat} (list : BitVec n) : List Reg :=
  ((List.range n).filter (fun i => list.getLsbD i)).map (fun i => BitVec.ofNat 4 i)

/-- The offset of an ARM branch (R158). -/
def branchOffset (off : BitVec 24) : Word := off.signExtend 32 <<< 2

/-- The offset of a Thumb conditional branch (R162, T16). -/
def branchOffset8 (off : BitVec 8) : Word := off.signExtend 32 <<< 1

/-- The offset of a Thumb branch (R162, T18). -/
def branchOffset11 (off : BitVec 11) : Word := off.signExtend 32 <<< 1

/-- A zero-extended immediate, scaled by a power of two (R162). -/
def scaled {n : Nat} (imm : BitVec n) (k : Nat) : Word := imm.zeroExtend 32 <<< k

end Sys2Proof.Machine
end

