-- ==== Sys2Proof/WellFormed.lean ====
section
/-!
DEFINITION. When a term of `Instr` is a word a program may write: its condition is not the reserved 1111 (R172), its
should-be-zero and should-be-one fields hold their required values (R21), and a Thumb conditional branch has one of the
fourteen conditions of format T16 (R160).  An ill-formed term still has a meaning (UNPREDICTABLE `cond-nv`, `sbz-sbo`).
-/

namespace Sys2Proof

/-- Every condition but the reserved 1111 (R172). -/
def Cond.allocated (c : Cond) : Bool := c != .nv

/-- The conditions of T16, 0000 to 1101 (R160, R472). -/
def Cond.thumbBranch (c : Cond) : Bool := c != .al && c != .nv

/-- A should-be-zero field holds zero (R21). -/
def shouldBeZero {n : Nat} (v : BitVec n) : Bool := v == 0#n

/-- A should-be-one field holds all ones (R21). -/
def shouldBeOne {n : Nat} (v : BitVec n) : Bool := v == BitVec.allOnes n

/-- The encoding checks of one instruction. -/
def Instr.wf : Instr → Bool
  | .andImm c _ _ _ _ _ => c.allocated
  | .andRsi c _ _ _ _ _ _ => c.allocated
  | .andRsr c _ _ _ _ _ _ => c.allocated
  | .eorImm c _ _ _ _ _ => c.allocated
  | .eorRsi c _ _ _ _ _ _ => c.allocated
  | .eorRsr c _ _ _ _ _ _ => c.allocated
  | .subImm c _ _ _ _ _ => c.allocated
  | .subRsi c _ _ _ _ _ _ => c.allocated
  | .subRsr c _ _ _ _ _ _ => c.allocated
  | .rsbImm c _ _ _ _ _ => c.allocated
  | .rsbRsi c _ _ _ _ _ _ => c.allocated
  | .rsbRsr c _ _ _ _ _ _ => c.allocated
  | .addImm c _ _ _ _ _ => c.allocated
  | .addRsi c _ _ _ _ _ _ => c.allocated
  | .addRsr c _ _ _ _ _ _ => c.allocated
  | .adcImm c _ _ _ _ _ => c.allocated
  | .adcRsi c _ _ _ _ _ _ => c.allocated
  | .adcRsr c _ _ _ _ _ _ => c.allocated
  | .sbcImm c _ _ _ _ _ => c.allocated
  | .sbcRsi c _ _ _ _ _ _ => c.allocated
  | .sbcRsr c _ _ _ _ _ _ => c.allocated
  | .rscImm c _ _ _ _ _ => c.allocated
  | .rscRsi c _ _ _ _ _ _ => c.allocated
  | .rscRsr c _ _ _ _ _ _ => c.allocated
  | .tstImm c _ sbz _ _ => c.allocated && shouldBeZero sbz
  | .tstRsi c _ sbz _ _ _ => c.allocated && shouldBeZero sbz
  | .tstRsr c _ sbz _ _ _ => c.allocated && shouldBeZero sbz
  | .teqImm c _ sbz _ _ => c.allocated && shouldBeZero sbz
  | .teqRsi c _ sbz _ _ _ => c.allocated && shouldBeZero sbz
  | .teqRsr c _ sbz _ _ _ => c.allocated && shouldBeZero sbz
  | .cmpImm c _ sbz _ _ => c.allocated && shouldBeZero sbz
  | .cmpRsi c _ sbz _ _ _ => c.allocated && shouldBeZero sbz
  | .cmpRsr c _ sbz _ _ _ => c.allocated && shouldBeZero sbz
  | .cmnImm c _ sbz _ _ => c.allocated && shouldBeZero sbz
  | .cmnRsi c _ sbz _ _ _ => c.allocated && shouldBeZero sbz
  | .cmnRsr c _ sbz _ _ _ => c.allocated && shouldBeZero sbz
  | .orrImm c _ _ _ _ _ => c.allocated
  | .orrRsi c _ _ _ _ _ _ => c.allocated
  | .orrRsr c _ _ _ _ _ _ => c.allocated
  | .movImm c _ sbz _ _ _ => c.allocated && shouldBeZero sbz
  | .movRsi c _ sbz _ _ _ _ => c.allocated && shouldBeZero sbz
  | .movRsr c _ sbz _ _ _ _ => c.allocated && shouldBeZero sbz
  | .bicImm c _ _ _ _ _ => c.allocated
  | .bicRsi c _ _ _ _ _ _ => c.allocated
  | .bicRsr c _ _ _ _ _ _ => c.allocated
  | .mvnImm c _ sbz _ _ _ => c.allocated && shouldBeZero sbz
  | .mvnRsi c _ sbz _ _ _ _ => c.allocated && shouldBeZero sbz
  | .mvnRsr c _ sbz _ _ _ _ => c.allocated && shouldBeZero sbz
  | .mul c _ _ sbz _ _ => c.allocated && shouldBeZero sbz
  | .mla c _ _ _ _ _ => c.allocated
  | .umull c _ _ _ _ _ => c.allocated
  | .umlal c _ _ _ _ _ => c.allocated
  | .smull c _ _ _ _ _ => c.allocated
  | .smlal c _ _ _ _ _ => c.allocated
  | .mrs c _ sbo _ sbzA sbzB sbzC => c.allocated && shouldBeOne sbo && shouldBeZero sbzA && shouldBeZero sbzB && shouldBeZero sbzC
  | .msrReg c _ _ sbo sbzA sbzB _ => c.allocated && shouldBeOne sbo && shouldBeZero sbzA && shouldBeZero sbzB
  | .msrImm c _ _ sbo _ _ => c.allocated && shouldBeOne sbo
  | .swp c _ _ sbz _ => c.allocated && shouldBeZero sbz
  | .swpb c _ _ sbz _ => c.allocated && shouldBeZero sbz
  | .bx c sbo _ => c.allocated && shouldBeOne sbo
  | .strhReg c _ _ _ _ _ sbz _ => c.allocated && shouldBeZero sbz
  | .strhImm c _ _ _ _ _ _ _ => c.allocated
  | .ldrhReg c _ _ _ _ _ sbz _ => c.allocated && shouldBeZero sbz
  | .ldrhImm c _ _ _ _ _ _ _ => c.allocated
  | .ldrsbReg c _ _ _ _ _ sbz _ => c.allocated && shouldBeZero sbz
  | .ldrsbImm c _ _ _ _ _ _ _ => c.allocated
  | .ldrshReg c _ _ _ _ _ sbz _ => c.allocated && shouldBeZero sbz
  | .ldrshImm c _ _ _ _ _ _ _ => c.allocated
  | .ldrImmPre c _ _ _ _ _ => c.allocated
  | .ldrImmPost c _ _ _ _ => c.allocated
  | .ldrRegPre c _ _ _ _ _ _ _ => c.allocated
  | .ldrRegPost c _ _ _ _ _ _ => c.allocated
  | .strImmPre c _ _ _ _ _ => c.allocated
  | .strImmPost c _ _ _ _ => c.allocated
  | .strRegPre c _ _ _ _ _ _ _ => c.allocated
  | .strRegPost c _ _ _ _ _ _ => c.allocated
  | .ldrbImmPre c _ _ _ _ _ => c.allocated
  | .ldrbImmPost c _ _ _ _ => c.allocated
  | .ldrbRegPre c _ _ _ _ _ _ _ => c.allocated
  | .ldrbRegPost c _ _ _ _ _ _ => c.allocated
  | .strbImmPre c _ _ _ _ _ => c.allocated
  | .strbImmPost c _ _ _ _ => c.allocated
  | .strbRegPre c _ _ _ _ _ _ _ => c.allocated
  | .strbRegPost c _ _ _ _ _ _ => c.allocated
  | .ldrtImm c _ _ _ _ => c.allocated
  | .ldrtReg c _ _ _ _ _ _ => c.allocated
  | .strtImm c _ _ _ _ => c.allocated
  | .strtReg c _ _ _ _ _ _ => c.allocated
  | .ldrbtImm c _ _ _ _ => c.allocated
  | .ldrbtReg c _ _ _ _ _ _ => c.allocated
  | .strbtImm c _ _ _ _ => c.allocated
  | .strbtReg c _ _ _ _ _ _ => c.allocated
  | .und c _ _ => c.allocated
  | .ldm c _ _ _ _ _ => c.allocated
  | .stm c _ _ _ _ _ => c.allocated
  | .ldmUsr c _ _ _ _ _ => c.allocated
  | .ldmRet c _ _ _ _ _ => c.allocated
  | .stmUsr c _ _ _ _ _ => c.allocated
  | .b c _ => c.allocated
  | .bl c _ => c.allocated
  | .ldc c _ _ _ _ _ _ _ _ => c.allocated
  | .stc c _ _ _ _ _ _ _ _ => c.allocated
  | .cdp c _ _ _ _ _ _ => c.allocated
  | .mcr c _ _ _ _ _ _ => c.allocated
  | .mrc c _ _ _ _ _ _ => c.allocated
  | .swi c _ => c.allocated
  | .tLslImm _ _ _ => true
  | .tLsrImm _ _ _ => true
  | .tAsrImm _ _ _ => true
  | .tAddReg _ _ _ => true
  | .tSubReg _ _ _ => true
  | .tAddImm3 _ _ _ => true
  | .tSubImm3 _ _ _ => true
  | .tMovImm _ _ => true
  | .tCmpImm _ _ => true
  | .tAddImm8 _ _ => true
  | .tSubImm8 _ _ => true
  | .tAnd _ _ => true
  | .tEor _ _ => true
  | .tLslReg _ _ => true
  | .tLsrReg _ _ => true
  | .tAsrReg _ _ => true
  | .tAdc _ _ => true
  | .tSbc _ _ => true
  | .tRor _ _ => true
  | .tTst _ _ => true
  | .tNeg _ _ => true
  | .tCmpReg _ _ => true
  | .tCmn _ _ => true
  | .tOrr _ _ => true
  | .tMul _ _ => true
  | .tBic _ _ => true
  | .tMvn _ _ => true
  | .tAddHi _ _ _ _ => true
  | .tCmpHi _ _ _ _ => true
  | .tMovHi _ _ _ _ => true
  | .tBx sbzA _ _ sbzB => shouldBeZero sbzA && shouldBeZero sbzB
  | .tLdrPc _ _ => true
  | .tStrReg _ _ _ => true
  | .tStrbReg _ _ _ => true
  | .tLdrReg _ _ _ => true
  | .tLdrbReg _ _ _ => true
  | .tStrhReg _ _ _ => true
  | .tLdsb _ _ _ => true
  | .tLdrhReg _ _ _ => true
  | .tLdsh _ _ _ => true
  | .tStrImm _ _ _ => true
  | .tLdrImm _ _ _ => true
  | .tStrbImm _ _ _ => true
  | .tLdrbImm _ _ _ => true
  | .tStrhImm _ _ _ => true
  | .tLdrhImm _ _ _ => true
  | .tStrSp _ _ => true
  | .tLdrSp _ _ => true
  | .tAddPc _ _ => true
  | .tAddSp _ _ => true
  | .tAddSpImm _ _ => true
  | .tPush _ _ => true
  | .tPop _ _ => true
  | .tStmia _ _ => true
  | .tLdmia _ _ => true
  | .tBCond cond _ => cond.thumbBranch
  | .tSwi _ => true
  | .tB _ => true
  | .tBlHi _ => true
  | .tBlLo _ => true

/-- An instruction whose encoding is allocated and well written. -/
abbrev Instr.WellFormed (i : Instr) : Prop := i.wf = true

end Sys2Proof
end

