-- ==== Sys2Proof/Machine/Gate.lean ====
section
/-!
DEFINITION. What comes before the effect of every instruction: the condition (spec/40_arm_dataproc.md rules R200, R201),
the should-be-zero and should-be-one fields (spec/00_scope.md rule R21), and the User-bank hazard
(spec/70_reset_and_hazards.md rule R611).
-/

namespace Sys2Proof.Machine

/-- The CPU step begun: `last_usr_bank` is cleared by every step that does not set it (R611). -/
def State.begun (s : State) : State := { s with lastUsrBank := false }

/-- `usr-bank-next` (R611): right after a User-bank transfer, a strict machine stops an instruction that accesses one of
the registers listed, if it is banked in the current mode. -/
def usrBankHazard (regs : List Reg) (s : State) : Bool :=
  s.lastUsrBank && s.strict && regs.any (banked s.cpsr.mode)

/-- Run an instruction's effect, unless the hazard of R611 stops it. -/
def afterHazard (regs : List Reg) (s : State) (body : State → Outcome) : Outcome :=
  if usrBankHazard regs s then .fault (.hazard .usrBankNext) else body s.begun

/-- An ARM instruction: its condition first (R200, R201), then its should-be fields (R21), then its effect.  `regs` are
the registers it accesses, for R611. -/
def armGate (c : Cond) (shouldBe : Bool) (regs : List Reg) (s : State) (body : State → Outcome) : Outcome :=
  if c = .nv then unpredIf s true .condNv (.next s.begun.nextArm)
  else if !condPassed c s.cpsr then .next s.begun.nextArm
  else unpredIf s (!shouldBe) .sbzSbo (afterHazard regs s body)

/-- A Thumb instruction: no condition (R400). -/
def thumbGate (regs : List Reg) (s : State) (body : State → Outcome) : Outcome := afterHazard regs s body

/-- The banked registers an exception entry writes: R14 of the entered mode, which is the current mode's own when the
mode does not change (R508, R611, log entry 26). -/
def entryRegs (e : Exc) (s : State) : List Reg := if s.cpsr.mode = e.mode then [regLR] else []

end Sys2Proof.Machine
end

