-- ==== Sys2Proof/Machine/Block.lean ====
section
/-!
DEFINITION. Block transfers: the loading and storing of a register list once, and LDM, STM, their User-bank and
exception-return forms (spec/42_arm_loadstore.md section 3).  The Thumb forms use the same operations.
-/

namespace Sys2Proof.Machine

/-- Load a word for each register of a list, at ascending aligned addresses (R320, R321). -/
def loadList (a : Word) (regs : List Reg) (s : State) : List (Reg × Word) × State :=
  match regs with
  | [] => ([], s)
  | r :: rest =>
    let (v, s1) := cpuRead (align4 a) .word s
    let (more, s2) := loadList (a + 4) rest s1
    ((r, v) :: more, s2)

/-- Store words at ascending aligned addresses (R320, R322). -/
def storeList (a : Word) (values : List Word) (s : State) : Except Fault State :=
  match values with
  | [] => .ok s
  | v :: rest =>
    match storeAligned a v s with
    | .error e => .error e
    | .ok s1 => storeList (a + 4) rest s1

/-- Write loaded registers in order with a given register write; R15 is left to the instruction. -/
def writeLoaded (set : State → Reg → Word → State) (loaded : List (Reg × Word)) (s : State) : State :=
  match loaded with
  | [] => s
  | (r, v) :: rest => writeLoaded set rest (if r = 15 then s else set s r v)

/-- The value loaded for R15, if it is in the list. -/
def loadedPc (loaded : List (Reg × Word)) : Option Word :=
  match loaded with
  | [] => none
  | (r, v) :: rest => if r = 15 then some v else loadedPc rest

/-- A block transfer: its registers, first address and write-back value (R320). -/
structure Block where
  regs : List Reg
  start : Word
  after : Word
  deriving DecidableEq, Repr

/-- The block of R320; an empty list is taken as {R15} with the addresses and write-back of 16 registers
(R320: `ldm-stm-empty`). -/
def blockOf {n : Nat} (base : Word) (p u : Bool) (list : BitVec n) : Block :=
  let regs := regList list
  let k := if regs.isEmpty then 16 else regs.length
  { regs := if regs.isEmpty then [15] else regs
    start := blockStart base p u k
    after := blockWriteBack base u k }

/-- The corners every ARM block transfer shares (R320). -/
def blockStops {n : Nat} (rn : Reg) (list : BitVec n) (s : State) (e : Outcome) : Outcome :=
  stopIf (rn == 15) .ldmStmPcBase <| unpredIf s (list == 0#n) .ldmStmEmpty e

/-- The base register is in the list (R321, R322). -/
def inList {n : Nat} (rn : Reg) (list : BitVec n) : Bool := list.getLsbD rn.toNat

/-- The write-back of a load: not when the base is in the list, which then holds the loaded value (R321). -/
def loadWriteBack {n : Nat} (w : Bool) (rn : Reg) (list : BitVec n) (b : Block) (s : State) : State :=
  if w && !inList rn list then s.setX rn b.after else s

/-- `LDM` (R321). -/
def execLdm (c : Cond) (p u w : Bool) (rn : Reg) (list : BitVec 16) (s : State) : Outcome :=
  armGate c true (rn :: regList list) s fun s =>
    blockStops rn list s <|
    unpredIf s (w && inList rn list) .ldmWbBaseInList <|
      let b := blockOf (s.x rn) p u list
      let (loaded, s1) := loadList b.start b.regs s
      let s2 := loadWriteBack w rn list b (writeLoaded State.setX loaded s1)
      match loadedPc loaded with
      | some v => .next (s2.setPc (align4 v))
      | none => .next s2.nextArm

/-- The base is in the list and is not its lowest register (R322, R469). -/
def baseNotLowest {n : Nat} (rn : Reg) (list : BitVec n) : Bool :=
  inList rn list && (regList list).head? != some rn

/-- What STM stores for a register: R15 as `pc + 12`, and the base, where it is written back and is not the lowest of
the list, as the write-back value (R322). -/
def storedValue {n : Nat} (w : Bool) (rn : Reg) (list : BitVec n) (b : Block) (s : State) (r : Reg) : Word :=
  if w && baseNotLowest rn list && r == rn then b.after else s.armX12 r

/-- `STM` (R322). -/
def execStm (c : Cond) (p u w : Bool) (rn : Reg) (list : BitVec 16) (s : State) : Outcome :=
  armGate c true (rn :: regList list) s fun s =>
    blockStops rn list s <|
    unpredIf s (w && baseNotLowest rn list) .stmWbBaseNotLowest <|
      let b := blockOf (s.x rn) p u list
      orFault (storeList b.start (b.regs.map (storedValue w rn list b s)) s) fun s1 =>
        .next (if w then s1.setX rn b.after else s1).nextArm

/-- The mode has no User bank to reach past (R323, R325). -/
def Mode.isUserBank (m : Mode) : Bool := m == .usr || m == .sys

/-- A User-bank transfer is done: `last_usr_bank` is set (R611). -/
def State.usrBankDone (s : State) : State := { s with lastUsrBank := true }

/-- `LDM_usr` (R323): the loaded registers are those of the User bank. -/
def execLdmUsr (c : Cond) (p u w : Bool) (rn : Reg) (list : BitVec 15) (s : State) : Outcome :=
  armGate c true [rn] s fun s =>
    blockStops rn list s <|
    stopIf w .ldmUsrWb <|
    stopIf s.cpsr.mode.isUserBank .ldmUsrInUsr <|
      let b := blockOf (s.x rn) p u list
      let (loaded, s1) := loadList b.start b.regs s
      let s2 := (writeLoaded State.setXUsr loaded s1).usrBankDone
      match loadedPc loaded with
      | some v => .next (s2.setPc (align4 v))
      | none => .next s2.nextArm

/-- The word loaded for R15 is the last of the list (R324). -/
def lastLoaded (loaded : List (Reg × Word)) : Word := (loadedPc loaded).getD 0

/-- `LDM_ret` (R324): the registers of the current bank and the write-back, then the exception return. -/
def execLdmRet (c : Cond) (p u w : Bool) (rn : Reg) (list : BitVec 15) (s : State) : Outcome :=
  armGate c true (rn :: regList list) s fun s =>
    blockStops rn (1#1 ++ list) s <|
    unpredIf s (w && inList rn list) .ldmWbBaseInList <|
      let b := blockOf (s.x rn) p u (1#1 ++ list)
      let (loaded, s1) := loadList b.start b.regs s
      let s2 := loadWriteBack w rn list b (writeLoaded State.setX loaded s1)
      orFault (returnFromException .ldmRetNospsr (lastLoaded loaded) s2) .next

/-- What `STM_usr` stores for a register: the User bank's, R15 as `pc + 12` (R325). -/
def storedUsr (s : State) (r : Reg) : Word := if r = 15 then s.pc + 12 else s.xUsr r

/-- `STM_usr` (R325). -/
def execStmUsr (c : Cond) (p u w : Bool) (rn : Reg) (list : BitVec 16) (s : State) : Outcome :=
  armGate c true [rn] s fun s =>
    blockStops rn list s <|
    stopIf w .stmUsrWb <|
    stopIf s.cpsr.mode.isUserBank .stmUsrInUsr <|
      let b := blockOf (s.x rn) p u list
      orFault (storeList b.start (b.regs.map (storedUsr s)) s) fun s1 => .next s1.usrBankDone.nextArm

end Sys2Proof.Machine
end

