-- ==== Sys2Proof/Machine/Branch.lean ====
section
/-!
DEFINITION. ARM branches, the software interrupt, the coprocessor stub, and the Undefined words of both instruction sets
(spec/43_arm_branch_system.md, spec/45_thumb_mem_branch.md rule R477).
-/

namespace Sys2Proof.Machine

/-- `B` (R350). -/
def execB (c : Cond) (off : BitVec 24) (s : State) : Outcome :=
  armGate c true [] s fun s => .next (s.setPc (s.pc + 8 + branchOffset off))

/-- `BL` (R351). -/
def execBl (c : Cond) (off : BitVec 24) (s : State) : Outcome :=
  armGate c true [regLR] s fun s => .next ((s.setX regLR (s.pc + 4)).setPc (s.pc + 8 + branchOffset off))

/-- Branch and exchange to a value (R352, R433): bit 0 selects the state. -/
def branchExchange (v : Word) (s : State) : Outcome :=
  let s1 := s.setCpsr { s.cpsr with t := v.getLsbD 0 }
  unpredIf s (!v.getLsbD 0 && v.getLsbD 1) .bxArmUnaligned (.next (s1.setPc (alignFor (v.getLsbD 0) v)))

/-- `BX` (R352). -/
def execBx (c : Cond) (sbo : BitVec 12) (rm : Reg) (s : State) : Outcome :=
  armGate c (shouldBeOne sbo) [rm] s fun s => branchExchange (s.armX rm) s

/-- An exception raised by an ARM instruction: the link is `pc + 4` (R502, R504, R509). -/
def raiseArm (e : Exc) (s : State) : Outcome := .next (takeExceptionWithLink e (s.pc + e.linkOffset false) s)

/-- An exception raised by a Thumb instruction: the link is `pc + 2` (R502, R504, R509). -/
def raiseThumb (e : Exc) (s : State) : Outcome := .next (takeExceptionWithLink e (s.pc + e.linkOffset true) s)

/-- `SWI` (R355); the comment field is ignored. -/
def execSwi (c : Cond) (_comment : BitVec 24) (s : State) : Outcome :=
  armGate c true (entryRegs .softwareInterrupt s) s (raiseArm .softwareInterrupt)

/-- Every coprocessor instruction (R360): by `CP_MODE`, only the pc advances, or Undefined is raised. -/
def coprocessor (c : Cond) (s : State) : Outcome :=
  match s.params.cp with
  | .nop => armGate c true [] s fun s => .next s.nextArm
  | .undefined => armGate c true (entryRegs .undefined s) s (raiseArm .undefined)

/-- `CDP` (R361). -/
def execCdp (c : Cond) (_op1 _crn _crd _cp : BitVec 4) (_op2 : BitVec 3) (_crm : BitVec 4) (s : State) : Outcome :=
  coprocessor c s

/-- `LDC` (R362): no memory is read and Rn is not written back. -/
def execLdc (c : Cond) (_p _u _n _w : Bool) (_rn : Reg) (_crd _cp : BitVec 4) (_off8 : BitVec 8) (s : State) :
    Outcome :=
  coprocessor c s

/-- `STC` (R363): no memory is written. -/
def execStc (c : Cond) (_p _u _n _w : Bool) (_rn : Reg) (_crd _cp : BitVec 4) (_off8 : BitVec 8) (s : State) :
    Outcome :=
  coprocessor c s

/-- `MCR` (R364): Rd is not read. -/
def execMcr (c : Cond) (_op1 : BitVec 3) (_crn : BitVec 4) (_rd : Reg) (_cp : BitVec 4) (_op2 : BitVec 3)
    (_crm : BitVec 4) (s : State) : Outcome :=
  coprocessor c s

/-- `MRC` (R365): neither Rd nor, for Rd = 15, the flags are written. -/
def execMrc (c : Cond) (_op1 : BitVec 3) (_crn : BitVec 4) (_rd : Reg) (_cp : BitVec 4) (_op2 : BitVec 3)
    (_crm : BitVec 4) (s : State) : Outcome :=
  coprocessor c s

/-- An ARM word of the undefined space or of no row: Undefined, once its condition passes (R366, R502). -/
def undefinedArm (c : Cond) (s : State) : Outcome :=
  armGate c true (entryRegs .undefined s) s (raiseArm .undefined)

/-- `UND` (R366). -/
def execUnd (c : Cond) (_hi : BitVec 20) (_lo : BitVec 4) (s : State) : Outcome := undefinedArm c s

/-- A Thumb halfword of no row: Undefined, with no condition (R477, R502). -/
def undefinedThumb (s : State) : Outcome := thumbGate (entryRegs .undefined s) s (raiseThumb .undefined)

end Sys2Proof.Machine
end

