-- ==== Sys2Proof/Machine/DataProc.lean ====
section
/-!
DEFINITION. The forty-eight ARM data-processing instructions (spec/40_arm_dataproc.md): the template of rule R213 once,
for each of the three operand forms, and a meaning for each row.
-/

namespace Sys2Proof.Machine

/-- The pc written by a data-processing instruction with S = 0 (R213). -/
def dpJump (target : Word) (s : State) : Outcome :=
  unpredIf s (target != align4 target) .armPcUnaligned (.next (s.setPc (align4 target)))

/-- The exception return of a data-processing instruction with S = 1 and Rd = 15 (R213, R511). -/
def dpReturn (target : Word) (s : State) : Outcome :=
  orFault (returnFromException .dpSPcNospsr target s) fun s' =>
    unpredIf s (s'.pc != target) .retPcUnaligned (.next s')

/-- The template of R213 once the operands are read. -/
def dpFinish (op : DpOp) (setFlags : Bool) (rd : Reg) (n : Word) (op2 : Shifted) (s : State) : Outcome :=
  let r := op.apply n op2 s.cpsr
  if op.writesRd then
    if rd = 15 then (if setFlags then dpReturn r.value s else dpJump r.value s)
    else
      let s1 := s.setX rd r.value
      .next (if setFlags then s1.flagsOf r else s1).nextArm
  else .next (s.flagsOf r).nextArm

/-- The registers a data-processing form accesses (R611). -/
def dpRegs (op : DpOp) (rn rd : Reg) (others : List Reg) : List Reg :=
  (if op.readsRn then [rn] else []) ++ (if op.writesRd then [rd] else []) ++ others

/-- Format A1: an immediate operand (R132, R203, R213). -/
def dpImm (op : DpOp) (c : Cond) (shouldBe setFlags : Bool) (rn rd : Reg) (rot : BitVec 4) (imm8 : BitVec 8)
    (s : State) : Outcome :=
  armGate c shouldBe (dpRegs op rn rd []) s fun s =>
    dpFinish op setFlags rd (s.armX rn) (immShifted rot imm8 s.cpsr.c) s

/-- Format A2: a register shifted by an immediate (R133, R204-R207, R213). -/
def dpRsi (op : DpOp) (c : Cond) (shouldBe setFlags : Bool) (rn rd : Reg) (amt : BitVec 5) (sh : Shift) (rm : Reg)
    (s : State) : Outcome :=
  armGate c shouldBe (dpRegs op rn rd [rm]) s fun s =>
    dpFinish op setFlags rd (s.armX rn) (shiftByImm sh (s.armX rm) amt s.cpsr.c) s

/-- R15 in the register-shift form, other than as Rs (R212). -/
def regShiftPc (op : DpOp) (rn rd rm : Reg) : Bool :=
  (op.readsRn && rn == 15) || (op.writesRd && rd == 15) || rm == 15

/-- Format A3: a register shifted by a register (R134, R208-R213). -/
def dpRsr (op : DpOp) (c : Cond) (shouldBe setFlags : Bool) (rn rd rs : Reg) (sh : Shift) (rm : Reg) (s : State) :
    Outcome :=
  armGate c shouldBe (dpRegs op rn rd [rs, rm]) s fun s =>
    stopIf (rs == 15) .dpRegshiftRsPc <|
    unpredIf s (regShiftPc op rn rd rm) .dpRegshiftPc <|
    dpFinish op setFlags rd (s.armX12 rn) (shiftByReg sh (s.armX12 rm) (lowByte (s.x rs)) s.cpsr.c) s

/-- `AND_imm` (R220): an immediate. -/
def execAndImm (c : Cond) (setFlags : Bool) (rn rd : Reg) (rot : BitVec 4) (imm8 : BitVec 8) (s : State) : Outcome :=
  dpImm .and c true setFlags rn rd rot imm8 s

/-- `AND_rsi` (R220): a register shifted by an immediate. -/
def execAndRsi (c : Cond) (setFlags : Bool) (rn rd : Reg) (amt : BitVec 5) (sh : Shift) (rm : Reg)
    (s : State) : Outcome :=
  dpRsi .and c true setFlags rn rd amt sh rm s

/-- `AND_rsr` (R220): a register shifted by a register. -/
def execAndRsr (c : Cond) (setFlags : Bool) (rn rd : Reg) (rs : Reg) (sh : Shift) (rm : Reg) (s : State) : Outcome :=
  dpRsr .and c true setFlags rn rd rs sh rm s

/-- `EOR_imm` (R221): an immediate. -/
def execEorImm (c : Cond) (setFlags : Bool) (rn rd : Reg) (rot : BitVec 4) (imm8 : BitVec 8) (s : State) : Outcome :=
  dpImm .eor c true setFlags rn rd rot imm8 s

/-- `EOR_rsi` (R221): a register shifted by an immediate. -/
def execEorRsi (c : Cond) (setFlags : Bool) (rn rd : Reg) (amt : BitVec 5) (sh : Shift) (rm : Reg)
    (s : State) : Outcome :=
  dpRsi .eor c true setFlags rn rd amt sh rm s

/-- `EOR_rsr` (R221): a register shifted by a register. -/
def execEorRsr (c : Cond) (setFlags : Bool) (rn rd : Reg) (rs : Reg) (sh : Shift) (rm : Reg) (s : State) : Outcome :=
  dpRsr .eor c true setFlags rn rd rs sh rm s

/-- `SUB_imm` (R222): an immediate. -/
def execSubImm (c : Cond) (setFlags : Bool) (rn rd : Reg) (rot : BitVec 4) (imm8 : BitVec 8) (s : State) : Outcome :=
  dpImm .sub c true setFlags rn rd rot imm8 s

/-- `SUB_rsi` (R222): a register shifted by an immediate. -/
def execSubRsi (c : Cond) (setFlags : Bool) (rn rd : Reg) (amt : BitVec 5) (sh : Shift) (rm : Reg)
    (s : State) : Outcome :=
  dpRsi .sub c true setFlags rn rd amt sh rm s

/-- `SUB_rsr` (R222): a register shifted by a register. -/
def execSubRsr (c : Cond) (setFlags : Bool) (rn rd : Reg) (rs : Reg) (sh : Shift) (rm : Reg) (s : State) : Outcome :=
  dpRsr .sub c true setFlags rn rd rs sh rm s

/-- `RSB_imm` (R223): an immediate. -/
def execRsbImm (c : Cond) (setFlags : Bool) (rn rd : Reg) (rot : BitVec 4) (imm8 : BitVec 8) (s : State) : Outcome :=
  dpImm .rsb c true setFlags rn rd rot imm8 s

/-- `RSB_rsi` (R223): a register shifted by an immediate. -/
def execRsbRsi (c : Cond) (setFlags : Bool) (rn rd : Reg) (amt : BitVec 5) (sh : Shift) (rm : Reg)
    (s : State) : Outcome :=
  dpRsi .rsb c true setFlags rn rd amt sh rm s

/-- `RSB_rsr` (R223): a register shifted by a register. -/
def execRsbRsr (c : Cond) (setFlags : Bool) (rn rd : Reg) (rs : Reg) (sh : Shift) (rm : Reg) (s : State) : Outcome :=
  dpRsr .rsb c true setFlags rn rd rs sh rm s

/-- `ADD_imm` (R224): an immediate. -/
def execAddImm (c : Cond) (setFlags : Bool) (rn rd : Reg) (rot : BitVec 4) (imm8 : BitVec 8) (s : State) : Outcome :=
  dpImm .add c true setFlags rn rd rot imm8 s

/-- `ADD_rsi` (R224): a register shifted by an immediate. -/
def execAddRsi (c : Cond) (setFlags : Bool) (rn rd : Reg) (amt : BitVec 5) (sh : Shift) (rm : Reg)
    (s : State) : Outcome :=
  dpRsi .add c true setFlags rn rd amt sh rm s

/-- `ADD_rsr` (R224): a register shifted by a register. -/
def execAddRsr (c : Cond) (setFlags : Bool) (rn rd : Reg) (rs : Reg) (sh : Shift) (rm : Reg) (s : State) : Outcome :=
  dpRsr .add c true setFlags rn rd rs sh rm s

/-- `ADC_imm` (R225): an immediate. -/
def execAdcImm (c : Cond) (setFlags : Bool) (rn rd : Reg) (rot : BitVec 4) (imm8 : BitVec 8) (s : State) : Outcome :=
  dpImm .adc c true setFlags rn rd rot imm8 s

/-- `ADC_rsi` (R225): a register shifted by an immediate. -/
def execAdcRsi (c : Cond) (setFlags : Bool) (rn rd : Reg) (amt : BitVec 5) (sh : Shift) (rm : Reg)
    (s : State) : Outcome :=
  dpRsi .adc c true setFlags rn rd amt sh rm s

/-- `ADC_rsr` (R225): a register shifted by a register. -/
def execAdcRsr (c : Cond) (setFlags : Bool) (rn rd : Reg) (rs : Reg) (sh : Shift) (rm : Reg) (s : State) : Outcome :=
  dpRsr .adc c true setFlags rn rd rs sh rm s

/-- `SBC_imm` (R226): an immediate. -/
def execSbcImm (c : Cond) (setFlags : Bool) (rn rd : Reg) (rot : BitVec 4) (imm8 : BitVec 8) (s : State) : Outcome :=
  dpImm .sbc c true setFlags rn rd rot imm8 s

/-- `SBC_rsi` (R226): a register shifted by an immediate. -/
def execSbcRsi (c : Cond) (setFlags : Bool) (rn rd : Reg) (amt : BitVec 5) (sh : Shift) (rm : Reg)
    (s : State) : Outcome :=
  dpRsi .sbc c true setFlags rn rd amt sh rm s

/-- `SBC_rsr` (R226): a register shifted by a register. -/
def execSbcRsr (c : Cond) (setFlags : Bool) (rn rd : Reg) (rs : Reg) (sh : Shift) (rm : Reg) (s : State) : Outcome :=
  dpRsr .sbc c true setFlags rn rd rs sh rm s

/-- `RSC_imm` (R227): an immediate. -/
def execRscImm (c : Cond) (setFlags : Bool) (rn rd : Reg) (rot : BitVec 4) (imm8 : BitVec 8) (s : State) : Outcome :=
  dpImm .rsc c true setFlags rn rd rot imm8 s

/-- `RSC_rsi` (R227): a register shifted by an immediate. -/
def execRscRsi (c : Cond) (setFlags : Bool) (rn rd : Reg) (amt : BitVec 5) (sh : Shift) (rm : Reg)
    (s : State) : Outcome :=
  dpRsi .rsc c true setFlags rn rd amt sh rm s

/-- `RSC_rsr` (R227): a register shifted by a register. -/
def execRscRsr (c : Cond) (setFlags : Bool) (rn rd : Reg) (rs : Reg) (sh : Shift) (rm : Reg) (s : State) : Outcome :=
  dpRsr .rsc c true setFlags rn rd rs sh rm s

/-- `TST_imm` (R228): an immediate. -/
def execTstImm (c : Cond) (rn : Reg) (sbz : BitVec 4) (rot : BitVec 4) (imm8 : BitVec 8) (s : State) : Outcome :=
  dpImm .tst c (shouldBeZero sbz) true rn 0 rot imm8 s

/-- `TST_rsi` (R228): a register shifted by an immediate. -/
def execTstRsi (c : Cond) (rn : Reg) (sbz : BitVec 4) (amt : BitVec 5) (sh : Shift) (rm : Reg)
    (s : State) : Outcome :=
  dpRsi .tst c (shouldBeZero sbz) true rn 0 amt sh rm s

/-- `TST_rsr` (R228): a register shifted by a register. -/
def execTstRsr (c : Cond) (rn : Reg) (sbz : BitVec 4) (rs : Reg) (sh : Shift) (rm : Reg) (s : State) : Outcome :=
  dpRsr .tst c (shouldBeZero sbz) true rn 0 rs sh rm s

/-- `TEQ_imm` (R229): an immediate. -/
def execTeqImm (c : Cond) (rn : Reg) (sbz : BitVec 4) (rot : BitVec 4) (imm8 : BitVec 8) (s : State) : Outcome :=
  dpImm .teq c (shouldBeZero sbz) true rn 0 rot imm8 s

/-- `TEQ_rsi` (R229): a register shifted by an immediate. -/
def execTeqRsi (c : Cond) (rn : Reg) (sbz : BitVec 4) (amt : BitVec 5) (sh : Shift) (rm : Reg)
    (s : State) : Outcome :=
  dpRsi .teq c (shouldBeZero sbz) true rn 0 amt sh rm s

/-- `TEQ_rsr` (R229): a register shifted by a register. -/
def execTeqRsr (c : Cond) (rn : Reg) (sbz : BitVec 4) (rs : Reg) (sh : Shift) (rm : Reg) (s : State) : Outcome :=
  dpRsr .teq c (shouldBeZero sbz) true rn 0 rs sh rm s

/-- `CMP_imm` (R230): an immediate. -/
def execCmpImm (c : Cond) (rn : Reg) (sbz : BitVec 4) (rot : BitVec 4) (imm8 : BitVec 8) (s : State) : Outcome :=
  dpImm .cmp c (shouldBeZero sbz) true rn 0 rot imm8 s

/-- `CMP_rsi` (R230): a register shifted by an immediate. -/
def execCmpRsi (c : Cond) (rn : Reg) (sbz : BitVec 4) (amt : BitVec 5) (sh : Shift) (rm : Reg)
    (s : State) : Outcome :=
  dpRsi .cmp c (shouldBeZero sbz) true rn 0 amt sh rm s

/-- `CMP_rsr` (R230): a register shifted by a register. -/
def execCmpRsr (c : Cond) (rn : Reg) (sbz : BitVec 4) (rs : Reg) (sh : Shift) (rm : Reg) (s : State) : Outcome :=
  dpRsr .cmp c (shouldBeZero sbz) true rn 0 rs sh rm s

/-- `CMN_imm` (R231): an immediate. -/
def execCmnImm (c : Cond) (rn : Reg) (sbz : BitVec 4) (rot : BitVec 4) (imm8 : BitVec 8) (s : State) : Outcome :=
  dpImm .cmn c (shouldBeZero sbz) true rn 0 rot imm8 s

/-- `CMN_rsi` (R231): a register shifted by an immediate. -/
def execCmnRsi (c : Cond) (rn : Reg) (sbz : BitVec 4) (amt : BitVec 5) (sh : Shift) (rm : Reg)
    (s : State) : Outcome :=
  dpRsi .cmn c (shouldBeZero sbz) true rn 0 amt sh rm s

/-- `CMN_rsr` (R231): a register shifted by a register. -/
def execCmnRsr (c : Cond) (rn : Reg) (sbz : BitVec 4) (rs : Reg) (sh : Shift) (rm : Reg) (s : State) : Outcome :=
  dpRsr .cmn c (shouldBeZero sbz) true rn 0 rs sh rm s

/-- `ORR_imm` (R232): an immediate. -/
def execOrrImm (c : Cond) (setFlags : Bool) (rn rd : Reg) (rot : BitVec 4) (imm8 : BitVec 8) (s : State) : Outcome :=
  dpImm .orr c true setFlags rn rd rot imm8 s

/-- `ORR_rsi` (R232): a register shifted by an immediate. -/
def execOrrRsi (c : Cond) (setFlags : Bool) (rn rd : Reg) (amt : BitVec 5) (sh : Shift) (rm : Reg)
    (s : State) : Outcome :=
  dpRsi .orr c true setFlags rn rd amt sh rm s

/-- `ORR_rsr` (R232): a register shifted by a register. -/
def execOrrRsr (c : Cond) (setFlags : Bool) (rn rd : Reg) (rs : Reg) (sh : Shift) (rm : Reg) (s : State) : Outcome :=
  dpRsr .orr c true setFlags rn rd rs sh rm s

/-- `MOV_imm` (R233): an immediate. -/
def execMovImm (c : Cond) (setFlags : Bool) (sbz : BitVec 4) (rd : Reg) (rot : BitVec 4) (imm8 : BitVec 8)
    (s : State) : Outcome :=
  dpImm .mov c (shouldBeZero sbz) setFlags 0 rd rot imm8 s

/-- `MOV_rsi` (R233): a register shifted by an immediate. -/
def execMovRsi (c : Cond) (setFlags : Bool) (sbz : BitVec 4) (rd : Reg) (amt : BitVec 5) (sh : Shift) (rm : Reg)
    (s : State) : Outcome :=
  dpRsi .mov c (shouldBeZero sbz) setFlags 0 rd amt sh rm s

/-- `MOV_rsr` (R233): a register shifted by a register. -/
def execMovRsr (c : Cond) (setFlags : Bool) (sbz : BitVec 4) (rd : Reg) (rs : Reg) (sh : Shift) (rm : Reg)
    (s : State) : Outcome :=
  dpRsr .mov c (shouldBeZero sbz) setFlags 0 rd rs sh rm s

/-- `BIC_imm` (R234): an immediate. -/
def execBicImm (c : Cond) (setFlags : Bool) (rn rd : Reg) (rot : BitVec 4) (imm8 : BitVec 8) (s : State) : Outcome :=
  dpImm .bic c true setFlags rn rd rot imm8 s

/-- `BIC_rsi` (R234): a register shifted by an immediate. -/
def execBicRsi (c : Cond) (setFlags : Bool) (rn rd : Reg) (amt : BitVec 5) (sh : Shift) (rm : Reg)
    (s : State) : Outcome :=
  dpRsi .bic c true setFlags rn rd amt sh rm s

/-- `BIC_rsr` (R234): a register shifted by a register. -/
def execBicRsr (c : Cond) (setFlags : Bool) (rn rd : Reg) (rs : Reg) (sh : Shift) (rm : Reg) (s : State) : Outcome :=
  dpRsr .bic c true setFlags rn rd rs sh rm s

/-- `MVN_imm` (R235): an immediate. -/
def execMvnImm (c : Cond) (setFlags : Bool) (sbz : BitVec 4) (rd : Reg) (rot : BitVec 4) (imm8 : BitVec 8)
    (s : State) : Outcome :=
  dpImm .mvn c (shouldBeZero sbz) setFlags 0 rd rot imm8 s

/-- `MVN_rsi` (R235): a register shifted by an immediate. -/
def execMvnRsi (c : Cond) (setFlags : Bool) (sbz : BitVec 4) (rd : Reg) (amt : BitVec 5) (sh : Shift) (rm : Reg)
    (s : State) : Outcome :=
  dpRsi .mvn c (shouldBeZero sbz) setFlags 0 rd amt sh rm s

/-- `MVN_rsr` (R235): a register shifted by a register. -/
def execMvnRsr (c : Cond) (setFlags : Bool) (sbz : BitVec 4) (rd : Reg) (rs : Reg) (sh : Shift) (rm : Reg)
    (s : State) : Outcome :=
  dpRsr .mvn c (shouldBeZero sbz) setFlags 0 rd rs sh rm s

end Sys2Proof.Machine
end

