-- ==== Sys2Proof/Machine/LoadStore.lean ====
section
/-!
DEFINITION. ARM single transfers (spec/42_arm_loadstore.md sections 1 and 2): the addressing of rules R300 and R310
with its corners once, each access once, and a meaning for each row.
-/

namespace Sys2Proof.Machine

/-- The write-back of R300 and R310, after the access. -/
def writeBack (a : Address) (rn : Reg) (s : State) : State := if a.writeBack then s.setX rn a.offsetAddr else s

/-- The corners of a register offset and of write-back to R15, with no behaviour given (R300, R310). -/
def addressStops (a : Address) (rn : Reg) (rm : Option Reg) (e : Outcome) : Outcome :=
  stopIf (a.writeBack && rn == 15) .lsWbPc <| stopIf (rm == some 15) .lsRmPc e

/-- The end of a load into a register other than R15: the write-back, then Rd, so that Rd holds the loaded value when
it is Rn (R300: `ldr-wb-rd`). -/
def loadFinish (a : Address) (rn rd : Reg) (v : Word) (s : State) : Outcome :=
  unpredIf s (a.writeBack && rn == rd) .ldrWbRd (.next ((writeBack a rn s).setX rd v).nextArm)

/-- LDR and LDRT once the address is known; a load of R15 is a branch that stays in ARM state (R301). -/
def loadWord (a : Address) (rn rd : Reg) (s : State) : Outcome :=
  let (v, s1) := loadRotated a.addr s
  if rd = 15 then .next ((writeBack a rn s1).setPc (align4 v)) else loadFinish a rn rd v s1

/-- LDRB and LDRBT (R303). -/
def loadByte (a : Address) (rn rd : Reg) (s : State) : Outcome :=
  stopIf (rd == 15) .ldrbPc <|
    let (v, s1) := cpuRead a.addr .byte s
    loadFinish a rn rd v s1

/-- The end of a store: the write-back (R300: `str-wb-rd`, the value stored is Rd as read before). -/
def storeFinish (a : Address) (rn rd : Reg) (stored : Except Fault State) (s : State) : Outcome :=
  unpredIf s (a.writeBack && rn == rd) .strWbRd <| orFault stored fun s1 => .next (writeBack a rn s1).nextArm

/-- STR and STRT: R15 is stored as `pc + 12` (R302). -/
def storeWord (a : Address) (rn rd : Reg) (s : State) : Outcome :=
  storeFinish a rn rd (storeAligned a.addr (s.armX12 rd) s) s

/-- STRB and STRBT (R304). -/
def storeByte (a : Address) (rn rd : Reg) (s : State) : Outcome :=
  stopIf (rd == 15) .strbPc <| storeFinish a rn rd (cpuWrite a.addr .byte (s.x rd) s) s

/-- A transfer with a 12-bit immediate offset, format A13 (R144, R300). -/
def singleImm (access : Address → Reg → Reg → State → Outcome) (c : Cond) (p u w : Bool) (rn rd : Reg)
    (imm12 : BitVec 12) (s : State) : Outcome :=
  armGate c true [rn, rd] s fun s =>
    let a := addressOf (s.armX rn) (offset12 imm12) p u w
    addressStops a rn none (access a rn rd s)

/-- A transfer with a scaled register offset, format A14 (R144, R300). -/
def singleReg (access : Address → Reg → Reg → State → Outcome) (c : Cond) (p u w : Bool) (rn rd : Reg)
    (amt : BitVec 5) (sh : Shift) (rm : Reg) (s : State) : Outcome :=
  armGate c true [rn, rd, rm] s fun s =>
    let a := addressOf (s.armX rn) (offsetReg s rm sh amt) p u w
    addressStops a rn (some rm) (access a rn rd s)

/-- LDRT: as LDR, but Rd = 15 is UNPREDICTABLE (R305). -/
def loadWordT (a : Address) (rn rd : Reg) (s : State) : Outcome := stopIf (rd == 15) .ldrtPc (loadWord a rn rd s)

/-- `LDR_imm_pre` (R301). -/
def execLdrImmPre (c : Cond) (u w : Bool) (rn rd : Reg) (imm12 : BitVec 12) (s : State) : Outcome :=
  singleImm loadWord c true u w rn rd imm12 s

/-- `LDR_imm_post` (R301). -/
def execLdrImmPost (c : Cond) (u : Bool) (rn rd : Reg) (imm12 : BitVec 12) (s : State) : Outcome :=
  singleImm loadWord c false u false rn rd imm12 s

/-- `LDR_reg_pre` (R301). -/
def execLdrRegPre (c : Cond) (u w : Bool) (rn rd : Reg) (amt : BitVec 5) (sh : Shift) (rm : Reg)
    (s : State) : Outcome :=
  singleReg loadWord c true u w rn rd amt sh rm s

/-- `LDR_reg_post` (R301). -/
def execLdrRegPost (c : Cond) (u : Bool) (rn rd : Reg) (amt : BitVec 5) (sh : Shift) (rm : Reg)
    (s : State) : Outcome :=
  singleReg loadWord c false u false rn rd amt sh rm s

/-- `STR_imm_pre` (R302). -/
def execStrImmPre (c : Cond) (u w : Bool) (rn rd : Reg) (imm12 : BitVec 12) (s : State) : Outcome :=
  singleImm storeWord c true u w rn rd imm12 s

/-- `STR_imm_post` (R302). -/
def execStrImmPost (c : Cond) (u : Bool) (rn rd : Reg) (imm12 : BitVec 12) (s : State) : Outcome :=
  singleImm storeWord c false u false rn rd imm12 s

/-- `STR_reg_pre` (R302). -/
def execStrRegPre (c : Cond) (u w : Bool) (rn rd : Reg) (amt : BitVec 5) (sh : Shift) (rm : Reg)
    (s : State) : Outcome :=
  singleReg storeWord c true u w rn rd amt sh rm s

/-- `STR_reg_post` (R302). -/
def execStrRegPost (c : Cond) (u : Bool) (rn rd : Reg) (amt : BitVec 5) (sh : Shift) (rm : Reg)
    (s : State) : Outcome :=
  singleReg storeWord c false u false rn rd amt sh rm s

/-- `LDRB_imm_pre` (R303). -/
def execLdrbImmPre (c : Cond) (u w : Bool) (rn rd : Reg) (imm12 : BitVec 12) (s : State) : Outcome :=
  singleImm loadByte c true u w rn rd imm12 s

/-- `LDRB_imm_post` (R303). -/
def execLdrbImmPost (c : Cond) (u : Bool) (rn rd : Reg) (imm12 : BitVec 12) (s : State) : Outcome :=
  singleImm loadByte c false u false rn rd imm12 s

/-- `LDRB_reg_pre` (R303). -/
def execLdrbRegPre (c : Cond) (u w : Bool) (rn rd : Reg) (amt : BitVec 5) (sh : Shift) (rm : Reg)
    (s : State) : Outcome :=
  singleReg loadByte c true u w rn rd amt sh rm s

/-- `LDRB_reg_post` (R303). -/
def execLdrbRegPost (c : Cond) (u : Bool) (rn rd : Reg) (amt : BitVec 5) (sh : Shift) (rm : Reg)
    (s : State) : Outcome :=
  singleReg loadByte c false u false rn rd amt sh rm s

/-- `STRB_imm_pre` (R304). -/
def execStrbImmPre (c : Cond) (u w : Bool) (rn rd : Reg) (imm12 : BitVec 12) (s : State) : Outcome :=
  singleImm storeByte c true u w rn rd imm12 s

/-- `STRB_imm_post` (R304). -/
def execStrbImmPost (c : Cond) (u : Bool) (rn rd : Reg) (imm12 : BitVec 12) (s : State) : Outcome :=
  singleImm storeByte c false u false rn rd imm12 s

/-- `STRB_reg_pre` (R304). -/
def execStrbRegPre (c : Cond) (u w : Bool) (rn rd : Reg) (amt : BitVec 5) (sh : Shift) (rm : Reg)
    (s : State) : Outcome :=
  singleReg storeByte c true u w rn rd amt sh rm s

/-- `STRB_reg_post` (R304). -/
def execStrbRegPost (c : Cond) (u : Bool) (rn rd : Reg) (amt : BitVec 5) (sh : Shift) (rm : Reg)
    (s : State) : Outcome :=
  singleReg storeByte c false u false rn rd amt sh rm s

/-- `LDRT_imm` (R305): post-indexed; the user-mode indication has no effect (R103). -/
def execLdrtImm (c : Cond) (u : Bool) (rn rd : Reg) (imm12 : BitVec 12) (s : State) : Outcome :=
  singleImm loadWordT c false u false rn rd imm12 s

/-- `LDRT_reg` (R305): post-indexed; the user-mode indication has no effect (R103). -/
def execLdrtReg (c : Cond) (u : Bool) (rn rd : Reg) (amt : BitVec 5) (sh : Shift) (rm : Reg) (s : State) : Outcome :=
  singleReg loadWordT c false u false rn rd amt sh rm s

/-- `STRT_imm` (R306): post-indexed; the user-mode indication has no effect (R103). -/
def execStrtImm (c : Cond) (u : Bool) (rn rd : Reg) (imm12 : BitVec 12) (s : State) : Outcome :=
  singleImm storeWord c false u false rn rd imm12 s

/-- `STRT_reg` (R306): post-indexed; the user-mode indication has no effect (R103). -/
def execStrtReg (c : Cond) (u : Bool) (rn rd : Reg) (amt : BitVec 5) (sh : Shift) (rm : Reg) (s : State) : Outcome :=
  singleReg storeWord c false u false rn rd amt sh rm s

/-- `LDRBT_imm` (R307): post-indexed; the user-mode indication has no effect (R103). -/
def execLdrbtImm (c : Cond) (u : Bool) (rn rd : Reg) (imm12 : BitVec 12) (s : State) : Outcome :=
  singleImm loadByte c false u false rn rd imm12 s

/-- `LDRBT_reg` (R307): post-indexed; the user-mode indication has no effect (R103). -/
def execLdrbtReg (c : Cond) (u : Bool) (rn rd : Reg) (amt : BitVec 5) (sh : Shift) (rm : Reg) (s : State) : Outcome :=
  singleReg loadByte c false u false rn rd amt sh rm s

/-- `STRBT_imm` (R308): post-indexed; the user-mode indication has no effect (R103). -/
def execStrbtImm (c : Cond) (u : Bool) (rn rd : Reg) (imm12 : BitVec 12) (s : State) : Outcome :=
  singleImm storeByte c false u false rn rd imm12 s

/-- `STRBT_reg` (R308): post-indexed; the user-mode indication has no effect (R103). -/
def execStrbtReg (c : Cond) (u : Bool) (rn rd : Reg) (amt : BitVec 5) (sh : Shift) (rm : Reg) (s : State) : Outcome :=
  singleReg storeByte c false u false rn rd amt sh rm s

-- Halfword and signed transfers

/-- LDRH: at an odd address the ARM7TDMI rotates the aligned halfword right by 8 (R311).  `ldrh-pc` is reported before
`ldrh-unaligned`.  DESIGN CHOICE, log entry 25. -/
def loadHalf (a : Address) (rn rd : Reg) (s : State) : Outcome :=
  stopIf (rd == 15) .ldrhPc <|
    let (v, s1) := loadHalfRotated a.addr s
    unpredIf s (a.addr.getLsbD 0) .ldrhUnaligned (loadFinish a rn rd v s1)

/-- STRH: an odd address stores to the aligned halfword; R15 stores `pc + 12` on the ARM7TDMI (R312).
`strh-pc` is reported before `strh-unaligned`.  DESIGN CHOICE, log entry 25. -/
def storeHalf (a : Address) (rn rd : Reg) (s : State) : Outcome :=
  unpredIf s (rd == 15) .strhPc <|
  unpredIf s (a.addr.getLsbD 0) .strhUnaligned <|
  storeFinish a rn rd (storeHalfAligned a.addr (s.armX12 rd) s) s

/-- LDRSB (R313). -/
def loadSignedByte (a : Address) (rn rd : Reg) (s : State) : Outcome :=
  stopIf (rd == 15) .ldrsbPc <|
    let (v, s1) := loadByteSigned a.addr s
    loadFinish a rn rd v s1

/-- LDRSH: at an odd address the ARM7TDMI gives the sign-extended byte (R314).  `ldrsh-pc` is reported before
`ldrsh-unaligned`.  DESIGN CHOICE, log entry 25. -/
def loadSignedHalf (a : Address) (rn rd : Reg) (s : State) : Outcome :=
  stopIf (rd == 15) .ldrshPc <|
    let (v, s1) := loadHalfSigned a.addr s
    unpredIf s (a.addr.getLsbD 0) .ldrshUnaligned (loadFinish a rn rd v s1)

/-- Post-indexed with W = 1, and then the corners shared with R300 (R310). -/
def halfStops (p w : Bool) (a : Address) (rn : Reg) (rm : Option Reg) (e : Outcome) : Outcome :=
  stopIf (!p && w) .ls3PostW (addressStops a rn rm e)

/-- A transfer with a register offset, format A11 (R143, R310). -/
def halfReg (access : Address → Reg → Reg → State → Outcome) (c : Cond) (p u w : Bool) (rn rd : Reg) (sbz : BitVec 4)
    (rm : Reg) (s : State) : Outcome :=
  armGate c (shouldBeZero sbz) [rn, rd, rm] s fun s =>
    let a := addressOf (s.armX rn) (s.armX rm) p u w
    halfStops p w a rn (some rm) (access a rn rd s)

/-- A transfer with an 8-bit immediate offset, format A12 (R143, R310). -/
def halfImm (access : Address → Reg → Reg → State → Outcome) (c : Cond) (p u w : Bool) (rn rd : Reg)
    (immH immL : BitVec 4) (s : State) : Outcome :=
  armGate c true [rn, rd] s fun s =>
    let a := addressOf (s.armX rn) (offsetHalf immH immL) p u w
    halfStops p w a rn none (access a rn rd s)

/-- `STRH_reg` (R312). -/
def execStrhReg (c : Cond) (p u w : Bool) (rn rd : Reg) (sbz : BitVec 4) (rm : Reg) (s : State) : Outcome :=
  halfReg storeHalf c p u w rn rd sbz rm s

/-- `STRH_imm` (R312). -/
def execStrhImm (c : Cond) (p u w : Bool) (rn rd : Reg) (immH immL : BitVec 4) (s : State) : Outcome :=
  halfImm storeHalf c p u w rn rd immH immL s

/-- `LDRH_reg` (R311). -/
def execLdrhReg (c : Cond) (p u w : Bool) (rn rd : Reg) (sbz : BitVec 4) (rm : Reg) (s : State) : Outcome :=
  halfReg loadHalf c p u w rn rd sbz rm s

/-- `LDRH_imm` (R311). -/
def execLdrhImm (c : Cond) (p u w : Bool) (rn rd : Reg) (immH immL : BitVec 4) (s : State) : Outcome :=
  halfImm loadHalf c p u w rn rd immH immL s

/-- `LDRSB_reg` (R313). -/
def execLdrsbReg (c : Cond) (p u w : Bool) (rn rd : Reg) (sbz : BitVec 4) (rm : Reg) (s : State) : Outcome :=
  halfReg loadSignedByte c p u w rn rd sbz rm s

/-- `LDRSB_imm` (R313). -/
def execLdrsbImm (c : Cond) (p u w : Bool) (rn rd : Reg) (immH immL : BitVec 4) (s : State) : Outcome :=
  halfImm loadSignedByte c p u w rn rd immH immL s

/-- `LDRSH_reg` (R314). -/
def execLdrshReg (c : Cond) (p u w : Bool) (rn rd : Reg) (sbz : BitVec 4) (rm : Reg) (s : State) : Outcome :=
  halfReg loadSignedHalf c p u w rn rd sbz rm s

/-- `LDRSH_imm` (R314). -/
def execLdrshImm (c : Cond) (p u w : Bool) (rn rd : Reg) (immH immL : BitVec 4) (s : State) : Outcome :=
  halfImm loadSignedHalf c p u w rn rd immH immL s

end Sys2Proof.Machine
end

