-- ==== Sys2Proof/Machine/Multiply.lean ====
section
/-!
DEFINITION. ARM multiply and multiply-long (spec/41_arm_multiply_psr_swap.md section 1).
-/

namespace Sys2Proof.Machine

/-- The end of MUL and MLA: the product, and the flags when S = 1 (R260, R261). -/
def mulFinish (setFlags : Bool) (rd : Reg) (v : Word) (s : State) : Outcome :=
  let s1 := s.setX rd v
  .next (if setFlags then s1.flagsMul v else s1).nextArm

/-- The end of a long multiply: RdHi, then RdLo, and the flags when S = 1 (R262-R265). -/
def mullFinish (setFlags : Bool) (rdHi rdLo : Reg) (p : BitVec 64) (s : State) : Outcome :=
  let s1 := (s.setX rdHi (p.extractLsb' 32 32)).setX rdLo (p.extractLsb' 0 32)
  .next (if setFlags then s1.flagsMulLong p else s1).nextArm

/-- The case `mull-regs` (R262): a register is 15, RdHi = RdLo, or RdHi or RdLo = Rm. -/
def mullRegsCase (rdHi rdLo rs rm : Reg) : Bool :=
  [rdHi, rdLo, rs, rm].contains 15 || rdHi == rdLo || rdHi == rm || rdLo == rm

/-- A long multiply of operands extended to 64 bits, with an addend (R262-R265). -/
def mullExec (signed accumulate : Bool) (c : Cond) (setFlags : Bool) (rdHi rdLo rs rm : Reg) (s : State) : Outcome :=
  armGate c true [rdHi, rdLo, rs, rm] s fun s =>
    stopIf (mullRegsCase rdHi rdLo rs rm) .mullRegs <|
      let widen (v : Word) : BitVec 64 := if signed then v.signExtend 64 else v.zeroExtend 64
      let addend : BitVec 64 := if accumulate then s.x rdHi ++ s.x rdLo else 0
      mullFinish setFlags rdHi rdLo (widen (s.x rm) * widen (s.x rs) + addend) s

/-- `MUL` (R260). -/
def execMul (c : Cond) (setFlags : Bool) (rd : Reg) (sbz : BitVec 4) (rs rm : Reg) (s : State) : Outcome :=
  armGate c (shouldBeZero sbz) [rd, rs, rm] s fun s =>
    stopIf ([rd, rs, rm].contains 15) .mulPc <|
    stopIf (rd == rm) .mulRdRm <|
    mulFinish setFlags rd (s.x rm * s.x rs) s

/-- `MLA` (R261). -/
def execMla (c : Cond) (setFlags : Bool) (rd rn rs rm : Reg) (s : State) : Outcome :=
  armGate c true [rd, rn, rs, rm] s fun s =>
    stopIf ([rd, rn, rs, rm].contains 15) .mulPc <|
    stopIf (rd == rm) .mulRdRm <|
    mulFinish setFlags rd (s.x rm * s.x rs + s.x rn) s

/-- `UMULL` (R262). -/
def execUmull (c : Cond) (setFlags : Bool) (rdHi rdLo rs rm : Reg) (s : State) : Outcome :=
  mullExec false false c setFlags rdHi rdLo rs rm s

/-- `UMLAL` (R263). -/
def execUmlal (c : Cond) (setFlags : Bool) (rdHi rdLo rs rm : Reg) (s : State) : Outcome :=
  mullExec false true c setFlags rdHi rdLo rs rm s

/-- `SMULL` (R264). -/
def execSmull (c : Cond) (setFlags : Bool) (rdHi rdLo rs rm : Reg) (s : State) : Outcome :=
  mullExec true false c setFlags rdHi rdLo rs rm s

/-- `SMLAL` (R265). -/
def execSmlal (c : Cond) (setFlags : Bool) (rdHi rdLo rs rm : Reg) (s : State) : Outcome :=
  mullExec true true c setFlags rdHi rdLo rs rm s

end Sys2Proof.Machine
end

