-- ==== Sys2Proof/Machine/PsrSwap.lean ====
section
/-!
DEFINITION. ARM status-register transfer and swap (spec/41_arm_multiply_psr_swap.md sections 2 and 3).
-/

namespace Sys2Proof.Machine

/-- `MRS` (R280).  Where both its cases hold, `mrs-pc` is the one reported, though R280 names it second.  DESIGN CHOICE, log
entry 25. -/
def execMrs (c : Cond) (r : Bool) (sbo : BitVec 4) (rd : Reg) (sbzA : BitVec 4) (sbzB : BitVec 2) (sbzC : BitVec 4)
    (s : State) : Outcome :=
  armGate c (shouldBeOne sbo && shouldBeZero sbzA && shouldBeZero sbzB && shouldBeZero sbzC) [rd] s fun s =>
    stopIf (rd == 15) .mrsPc <|
    if r then
      match s.spsrOf s.cpsr.mode with
      | none => .fault (.unpredictable .mrsSpsrNospsr)
      | some p => .next (s.setX rd p.toWord).nextArm
    else .next (s.setX rd s.cpsr.toWord).nextArm

/-- The control byte of an MSR to the CPSR, `field_mask` bit 0, written outside User mode only (R281). -/
def msrControl (operand : Word) (s : State) : Except Fault State :=
  if operand.getLsbD 5 != s.cpsr.t then .error (.unpredictable .msrT)
  else
    match Mode.ofBits (operand.extractLsb' 0 5) with
    | none => .error (.unpredictable .badMode)
    | some m =>
      .ok (s.setCpsr { s.cpsr with i := operand.getLsbD 7, f := operand.getLsbD 6, t := operand.getLsbD 5, mode := m })

/-- The flags byte of an MSR to the CPSR, `field_mask` bit 3 (R281). -/
def msrFlags (operand : Word) (s : State) : State :=
  s.setFlags (operand.getLsbD 31) (operand.getLsbD 30) (operand.getLsbD 29) (operand.getLsbD 28)

/-- An SPSR with the fields an MSR writes (R281); the other fields and the reserved bits stay (R55). -/
def Psr.msr (p : Psr) (mask : BitVec 4) (operand : Word) : Psr :=
  let p1 := if mask.getLsbD 0 then
      { p with i := operand.getLsbD 7, f := operand.getLsbD 6, t := operand.getLsbD 5, m := operand.extractLsb' 0 5 }
    else p
  if mask.getLsbD 3 then
    { p1 with n := operand.getLsbD 31, z := operand.getLsbD 30, c := operand.getLsbD 29, v := operand.getLsbD 28 }
  else p1

/-- The MSR write procedure (R281). -/
def msrWrite (r : Bool) (mask : BitVec 4) (operand : Word) (s : State) : Outcome :=
  if r then
    match s.spsrOf s.cpsr.mode with
    | none => .fault (.unpredictable .msrSpsrNospsr)
    | some p => .next (s.setSpsr s.cpsr.mode (p.msr mask operand)).nextArm
  else
    orFault (if mask.getLsbD 0 && s.cpsr.mode.privileged then msrControl operand s else .ok s) fun s1 =>
      .next (if mask.getLsbD 3 then msrFlags operand s1 else s1).nextArm

/-- `MSR_reg` (R282). -/
def execMsrReg (c : Cond) (r : Bool) (mask sbo sbzA : BitVec 4) (sbzB : BitVec 2) (rm : Reg) (s : State) : Outcome :=
  armGate c (shouldBeOne sbo && shouldBeZero sbzA && shouldBeZero sbzB) [rm] s fun s =>
    stopIf (rm == 15) .msrPc <| msrWrite r mask (s.x rm) s

/-- `MSR_imm` (R283). -/
def execMsrImm (c : Cond) (r : Bool) (mask sbo rot : BitVec 4) (imm8 : BitVec 8) (s : State) : Outcome :=
  armGate c (shouldBeOne sbo) [] s fun s => msrWrite r mask (immShifted rot imm8 s.cpsr.c).value s

/-- The stops of SWP and SWPB (R290): a register is 15, or Rn is one of the others. -/
def swapStops (rn rd rm : Reg) (e : Outcome) : Outcome :=
  stopIf ([rd, rm, rn].contains 15) .swpPc <| stopIf (rn == rm || rn == rd) .swpRnOverlap e

/-- `SWP` (R290): the rotated word is read, Rm is stored to the aligned word, then Rd is written. -/
def execSwp (c : Cond) (rn rd : Reg) (sbz : BitVec 4) (rm : Reg) (s : State) : Outcome :=
  armGate c (shouldBeZero sbz) [rn, rd, rm] s fun s =>
    swapStops rn rd rm <|
      let (temp, s1) := loadRotated (s.x rn) s
      orFault (storeAligned (s.x rn) (s.x rm) s1) fun s2 => .next (s2.setX rd temp).nextArm

/-- `SWPB` (R291). -/
def execSwpb (c : Cond) (rn rd : Reg) (sbz : BitVec 4) (rm : Reg) (s : State) : Outcome :=
  armGate c (shouldBeZero sbz) [rn, rd, rm] s fun s =>
    swapStops rn rd rm <|
      let (temp, s1) := cpuRead (s.x rn) .byte s
      orFault (cpuWrite (s.x rn) .byte (s.x rm) s1) fun s2 => .next (s2.setX rd temp).nextArm

end Sys2Proof.Machine
end

