-- ==== Sys2Proof/Machine/ThumbAlu.lean ====
section
/-!
DEFINITION. Thumb shifts, arithmetic, logic, high registers, BX and address generation (spec/44_thumb_alu.md).
-/

namespace Sys2Proof.Machine

/-- The end of an instruction that writes Rd and the flags N, Z, C and V (R400 NZCV). -/
def thumbArith (rd : Reg) (r : AluResult) (s : State) : Outcome := .next ((s.setX rd r.value).flagsOf r).nextThumb

/-- The end of a compare: the flags N, Z, C and V (R400 NZCV). -/
def thumbCompare (r : AluResult) (s : State) : Outcome := .next (s.flagsOf r).nextThumb

/-- The end of a shift: Rd, N, Z and the shifter's C (R400). -/
def thumbShift (rd : Reg) (r : Shifted) (s : State) : Outcome := .next ((s.setX rd r.value).flagsNZC r).nextThumb

/-- The end of a logical instruction: Rd, N and Z (R400 NZ). -/
def thumbLogic (rd : Reg) (v : Word) (s : State) : Outcome := .next ((s.setX rd v).flagsNZ v).nextThumb

/-- The end of an instruction that writes Rd and no flag (R435-R437). -/
def thumbWrite (rd : Reg) (v : Word) (s : State) : Outcome := .next (s.setX rd v).nextThumb

-- T1

/-- `T_LSL_imm` (R401). -/
def execTLslImm (off5 : BitVec 5) (rs rd : LowReg) (s : State) : Outcome :=
  thumbGate [low rs, low rd] s fun s => thumbShift (low rd) (shiftByImm .lsl (s.x (low rs)) off5 s.cpsr.c) s

/-- `T_LSR_imm` (R402). -/
def execTLsrImm (off5 : BitVec 5) (rs rd : LowReg) (s : State) : Outcome :=
  thumbGate [low rs, low rd] s fun s => thumbShift (low rd) (shiftByImm .lsr (s.x (low rs)) off5 s.cpsr.c) s

/-- `T_ASR_imm` (R403). -/
def execTAsrImm (off5 : BitVec 5) (rs rd : LowReg) (s : State) : Outcome :=
  thumbGate [low rs, low rd] s fun s => thumbShift (low rd) (shiftByImm .asr (s.x (low rs)) off5 s.cpsr.c) s

-- T2

/-- `T_ADD_reg` (R404). -/
def execTAddReg (rn rs rd : LowReg) (s : State) : Outcome :=
  thumbGate [low rn, low rs, low rd] s fun s =>
    thumbArith (low rd) (addWithCarry (s.x (low rs)) (s.x (low rn)) false) s

/-- `T_SUB_reg` (R405). -/
def execTSubReg (rn rs rd : LowReg) (s : State) : Outcome :=
  thumbGate [low rn, low rs, low rd] s fun s =>
    thumbArith (low rd) (addWithCarry (s.x (low rs)) (~~~s.x (low rn)) true) s

/-- `T_ADD_imm3` (R406). -/
def execTAddImm3 (imm3 : BitVec 3) (rs rd : LowReg) (s : State) : Outcome :=
  thumbGate [low rs, low rd] s fun s =>
    thumbArith (low rd) (addWithCarry (s.x (low rs)) (scaled imm3 0) false) s

/-- `T_SUB_imm3` (R407). -/
def execTSubImm3 (imm3 : BitVec 3) (rs rd : LowReg) (s : State) : Outcome :=
  thumbGate [low rs, low rd] s fun s =>
    thumbArith (low rd) (addWithCarry (s.x (low rs)) (~~~scaled imm3 0) true) s

-- T3

/-- `T_MOV_imm` (R408). -/
def execTMovImm (rd : LowReg) (imm8 : BitVec 8) (s : State) : Outcome :=
  thumbGate [low rd] s fun s => thumbLogic (low rd) (scaled imm8 0) s

/-- `T_CMP_imm` (R409). -/
def execTCmpImm (rd : LowReg) (imm8 : BitVec 8) (s : State) : Outcome :=
  thumbGate [low rd] s fun s => thumbCompare (addWithCarry (s.x (low rd)) (~~~scaled imm8 0) true) s

/-- `T_ADD_imm8` (R410). -/
def execTAddImm8 (rd : LowReg) (imm8 : BitVec 8) (s : State) : Outcome :=
  thumbGate [low rd] s fun s => thumbArith (low rd) (addWithCarry (s.x (low rd)) (scaled imm8 0) false) s

/-- `T_SUB_imm8` (R411). -/
def execTSubImm8 (rd : LowReg) (imm8 : BitVec 8) (s : State) : Outcome :=
  thumbGate [low rd] s fun s => thumbArith (low rd) (addWithCarry (s.x (low rd)) (~~~scaled imm8 0) true) s

-- T4

/-- A T4 instruction: `d = x[Rd]` and `s = x[Rs]` are read first. -/
def thumbT4 (rs rd : LowReg) (s : State) (body : Word → Word → State → Outcome) : Outcome :=
  thumbGate [low rs, low rd] s fun s => body (s.x (low rd)) (s.x (low rs)) s

/-- `T_AND` (R412). -/
def execTAnd (rs rd : LowReg) (s : State) : Outcome :=
  thumbT4 rs rd s fun d m => thumbLogic (low rd) (d &&& m)

/-- `T_EOR` (R413). -/
def execTEor (rs rd : LowReg) (s : State) : Outcome :=
  thumbT4 rs rd s fun d m => thumbLogic (low rd) (d ^^^ m)

/-- `T_LSL_reg` (R414). -/
def execTLslReg (rs rd : LowReg) (s : State) : Outcome :=
  thumbT4 rs rd s fun d m s => thumbShift (low rd) (shiftByReg .lsl d (lowByte m) s.cpsr.c) s

/-- `T_LSR_reg` (R415). -/
def execTLsrReg (rs rd : LowReg) (s : State) : Outcome :=
  thumbT4 rs rd s fun d m s => thumbShift (low rd) (shiftByReg .lsr d (lowByte m) s.cpsr.c) s

/-- `T_ASR_reg` (R416). -/
def execTAsrReg (rs rd : LowReg) (s : State) : Outcome :=
  thumbT4 rs rd s fun d m s => thumbShift (low rd) (shiftByReg .asr d (lowByte m) s.cpsr.c) s

/-- `T_ADC` (R417). -/
def execTAdc (rs rd : LowReg) (s : State) : Outcome :=
  thumbT4 rs rd s fun d m s => thumbArith (low rd) (addWithCarry d m s.cpsr.c) s

/-- `T_SBC` (R418). -/
def execTSbc (rs rd : LowReg) (s : State) : Outcome :=
  thumbT4 rs rd s fun d m s => thumbArith (low rd) (addWithCarry d (~~~m) s.cpsr.c) s

/-- `T_ROR` (R419). -/
def execTRor (rs rd : LowReg) (s : State) : Outcome :=
  thumbT4 rs rd s fun d m s => thumbShift (low rd) (shiftByReg .ror d (lowByte m) s.cpsr.c) s

/-- `T_TST` (R420). -/
def execTTst (rs rd : LowReg) (s : State) : Outcome :=
  thumbT4 rs rd s fun d m s => .next (s.flagsNZ (d &&& m)).nextThumb

/-- `T_NEG` (R421). -/
def execTNeg (rs rd : LowReg) (s : State) : Outcome :=
  thumbT4 rs rd s fun _ m => thumbArith (low rd) (addWithCarry 0 (~~~m) true)

/-- `T_CMP_reg` (R422). -/
def execTCmpReg (rs rd : LowReg) (s : State) : Outcome :=
  thumbT4 rs rd s fun d m => thumbCompare (addWithCarry d (~~~m) true)

/-- `T_CMN` (R423). -/
def execTCmn (rs rd : LowReg) (s : State) : Outcome :=
  thumbT4 rs rd s fun d m => thumbCompare (addWithCarry d m false)

/-- `T_ORR` (R424). -/
def execTOrr (rs rd : LowReg) (s : State) : Outcome :=
  thumbT4 rs rd s fun d m => thumbLogic (low rd) (d ||| m)

/-- `T_MUL` (R425). -/
def execTMul (rs rd : LowReg) (s : State) : Outcome :=
  thumbT4 rs rd s fun d m s =>
    unpredIf s (rd == rs) .tMulRdRm (.next ((s.setX (low rd) (m * d)).flagsMul (m * d)).nextThumb)

/-- `T_BIC` (R426). -/
def execTBic (rs rd : LowReg) (s : State) : Outcome :=
  thumbT4 rs rd s fun d m => thumbLogic (low rd) (d &&& ~~~m)

/-- `T_MVN` (R427). -/
def execTMvn (rs rd : LowReg) (s : State) : Outcome :=
  thumbT4 rs rd s fun _ m => thumbLogic (low rd) (~~~m)

-- T5

/-- A high-register instruction: both registers low is UNPREDICTABLE (R429). -/
def thumbT5 (h1 h2 : Bool) (rs rd : LowReg) (s : State) (body : Word → Word → State → Outcome) : Outcome :=
  thumbGate [high h1 rd, high h2 rs] s fun s =>
    unpredIf s (!h1 && !h2) .t5LoLo (body (s.thumbX (high h1 rd)) (s.thumbX (high h2 rs)) s)

/-- Write a register of any number; R15 is a branch that stays in Thumb state (R430, R432). -/
def thumbWriteAny (d : Reg) (v : Word) (s : State) : Outcome :=
  if d = 15 then .next (s.setPc (align2 v)) else .next (s.setX d v).nextThumb

/-- `T_ADD_hi` (R430). -/
def execTAddHi (h1 h2 : Bool) (rs rd : LowReg) (s : State) : Outcome :=
  thumbT5 h1 h2 rs rd s fun d m => thumbWriteAny (high h1 rd) (d + m)

/-- `T_CMP_hi` (R431). -/
def execTCmpHi (h1 h2 : Bool) (rs rd : LowReg) (s : State) : Outcome :=
  thumbT5 h1 h2 rs rd s fun d m => thumbCompare (addWithCarry d (~~~m) true)

/-- `T_MOV_hi` (R432). -/
def execTMovHi (h1 h2 : Bool) (rs rd : LowReg) (s : State) : Outcome :=
  thumbT5 h1 h2 rs rd s fun _ m => thumbWriteAny (high h1 rd) m

/-- `T_BX` (R433). -/
def execTBx (sbzA : BitVec 1) (h2 : Bool) (rs : LowReg) (sbzB : BitVec 3) (s : State) : Outcome :=
  unpredIf s (!(shouldBeZero sbzA && shouldBeZero sbzB)) .sbzSbo <|
  thumbGate [high h2 rs] s fun s => branchExchange (s.thumbX (high h2 rs)) s

-- T12, T13

/-- `T_ADD_pc` (R435). -/
def execTAddPc (rd : LowReg) (word8 : BitVec 8) (s : State) : Outcome :=
  thumbGate [low rd] s fun s => thumbWrite (low rd) (align4 (s.pc + 4) + scaled word8 2) s

/-- `T_ADD_sp` (R436). -/
def execTAddSp (rd : LowReg) (word8 : BitVec 8) (s : State) : Outcome :=
  thumbGate [regSP, low rd] s fun s => thumbWrite (low rd) (s.x regSP + scaled word8 2) s

/-- `T_ADD_sp_imm` (R437): S = 1 subtracts. -/
def execTAddSpImm (sub : Bool) (sword7 : BitVec 7) (s : State) : Outcome :=
  thumbGate [regSP] s fun s =>
    thumbWrite regSP (if sub then s.x regSP - scaled sword7 2 else s.x regSP + scaled sword7 2) s

end Sys2Proof.Machine
end

