-- ==== Sys2Proof/Machine/ThumbMem.lean ====
section
/-!
DEFINITION. Thumb loads, stores, block transfers, branches and the software interrupt (spec/45_thumb_mem_branch.md).
-/

namespace Sys2Proof.Machine

/-- The end of a load: Rd, no flag (R450-R466). -/
def thumbLoad (rd : LowReg) (loaded : Word × State) : Outcome := .next (loaded.2.setX (low rd) loaded.1).nextThumb

/-- The end of a store (R451-R466). -/
def thumbStore (stored : Except Fault State) : Outcome := orFault stored fun s => .next s.nextThumb

/-- A halfword store; an odd address is UNPREDICTABLE (R455, R463). -/
def thumbStoreHalf (a v : Word) (s : State) : Outcome :=
  unpredIf s (a.getLsbD 0) .strhUnaligned (thumbStore (storeHalfAligned a v s))

/-- A halfword load; an odd address is UNPREDICTABLE (R457, R464). -/
def thumbLoadHalf (rd : LowReg) (a : Word) (s : State) : Outcome :=
  unpredIf s (a.getLsbD 0) .ldrhUnaligned (thumbLoad rd (loadHalfRotated a s))

/-- A transfer at `x[Rb] + x[Ro]` (T7, T8). -/
def thumbRegOffset (ro rb rd : LowReg) (s : State) (access : Word → State → Outcome) : Outcome :=
  thumbGate [low ro, low rb, low rd] s fun s => access (s.x (low rb) + s.x (low ro)) s

/-- A transfer at `x[Rb]` plus a scaled immediate (T9, T10). -/
def thumbImmOffset (off5 : BitVec 5) (scale : Nat) (rb rd : LowReg) (s : State) (access : Word → State → Outcome) :
    Outcome :=
  thumbGate [low rb, low rd] s fun s => access (s.x (low rb) + scaled off5 scale) s

/-- `T_LDR_pc` (R450). -/
def execTLdrPc (rd : LowReg) (word8 : BitVec 8) (s : State) : Outcome :=
  thumbGate [low rd] s fun s => thumbLoad rd (cpuRead (align4 (s.pc + 4) + scaled word8 2) .word s)

/-- `T_STR_reg` (R451). -/
def execTStrReg (ro rb rd : LowReg) (s : State) : Outcome :=
  thumbRegOffset ro rb rd s fun a s => thumbStore (storeAligned a (s.x (low rd)) s)

/-- `T_STRB_reg` (R452). -/
def execTStrbReg (ro rb rd : LowReg) (s : State) : Outcome :=
  thumbRegOffset ro rb rd s fun a s => thumbStore (cpuWrite a .byte (s.x (low rd)) s)

/-- `T_LDR_reg` (R453). -/
def execTLdrReg (ro rb rd : LowReg) (s : State) : Outcome :=
  thumbRegOffset ro rb rd s fun a s => thumbLoad rd (loadRotated a s)

/-- `T_LDRB_reg` (R454). -/
def execTLdrbReg (ro rb rd : LowReg) (s : State) : Outcome :=
  thumbRegOffset ro rb rd s fun a s => thumbLoad rd (cpuRead a .byte s)

/-- `T_STRH_reg` (R455). -/
def execTStrhReg (ro rb rd : LowReg) (s : State) : Outcome :=
  thumbRegOffset ro rb rd s fun a s => thumbStoreHalf a (s.x (low rd)) s

/-- `T_LDSB` (R456). -/
def execTLdsb (ro rb rd : LowReg) (s : State) : Outcome :=
  thumbRegOffset ro rb rd s fun a s => thumbLoad rd (loadByteSigned a s)

/-- `T_LDRH_reg` (R457). -/
def execTLdrhReg (ro rb rd : LowReg) (s : State) : Outcome :=
  thumbRegOffset ro rb rd s fun a s => thumbLoadHalf rd a s

/-- `T_LDSH` (R458). -/
def execTLdsh (ro rb rd : LowReg) (s : State) : Outcome :=
  thumbRegOffset ro rb rd s fun a s =>
    unpredIf s (a.getLsbD 0) .ldrshUnaligned (thumbLoad rd (loadHalfSigned a s))

/-- `T_STR_imm` (R459). -/
def execTStrImm (off5 : BitVec 5) (rb rd : LowReg) (s : State) : Outcome :=
  thumbImmOffset off5 2 rb rd s fun a s => thumbStore (storeAligned a (s.x (low rd)) s)

/-- `T_LDR_imm` (R460). -/
def execTLdrImm (off5 : BitVec 5) (rb rd : LowReg) (s : State) : Outcome :=
  thumbImmOffset off5 2 rb rd s fun a s => thumbLoad rd (loadRotated a s)

/-- `T_STRB_imm` (R461). -/
def execTStrbImm (off5 : BitVec 5) (rb rd : LowReg) (s : State) : Outcome :=
  thumbImmOffset off5 0 rb rd s fun a s => thumbStore (cpuWrite a .byte (s.x (low rd)) s)

/-- `T_LDRB_imm` (R462). -/
def execTLdrbImm (off5 : BitVec 5) (rb rd : LowReg) (s : State) : Outcome :=
  thumbImmOffset off5 0 rb rd s fun a s => thumbLoad rd (cpuRead a .byte s)

/-- `T_STRH_imm` (R463). -/
def execTStrhImm (off5 : BitVec 5) (rb rd : LowReg) (s : State) : Outcome :=
  thumbImmOffset off5 1 rb rd s fun a s => thumbStoreHalf a (s.x (low rd)) s

/-- `T_LDRH_imm` (R464). -/
def execTLdrhImm (off5 : BitVec 5) (rb rd : LowReg) (s : State) : Outcome :=
  thumbImmOffset off5 1 rb rd s fun a s => thumbLoadHalf rd a s

/-- `T_STR_sp` (R465). -/
def execTStrSp (rd : LowReg) (word8 : BitVec 8) (s : State) : Outcome :=
  thumbGate [regSP, low rd] s fun s =>
    thumbStore (storeAligned (s.x regSP + scaled word8 2) (s.x (low rd)) s)

/-- `T_LDR_sp` (R466). -/
def execTLdrSp (rd : LowReg) (word8 : BitVec 8) (s : State) : Outcome :=
  thumbGate [regSP, low rd] s fun s => thumbLoad rd (loadRotated (s.x regSP + scaled word8 2) s)

-- Block transfers

/-- The list of a Thumb block transfer with its extra register; an empty one is taken as {R15} and counts as 16
(R467-R470: `t-empty-list`). -/
def thumbList (list : BitVec 8) (extra : Option Reg) : List Reg := regList list ++ extra.toList

/-- The registers moved: R15 alone for an empty list. -/
def thumbMoved (regs : List Reg) : List Reg := if regs.isEmpty then [15] else regs

/-- The bytes the base moves by: 4 for each register, 0x40 for an empty list. -/
def thumbBlockSize (regs : List Reg) : Word :=
  if regs.isEmpty then 0x40 else BitVec.ofNat 32 (4 * regs.length)

/-- What PUSH and STMIA store for a register: R15, of an empty list, as `pc + 6`. -/
def thumbStored (s : State) (r : Reg) : Word := if r = 15 then s.pc + 6 else s.x r

/-- The end of a block load: the registers, and R15 as a branch that stays in Thumb state (R468, R470). -/
def thumbLoadFinish (loaded : List (Reg × Word)) (s : State) : Outcome :=
  match loadedPc loaded with
  | some v => .next (s.setPc (align2 v))
  | none => .next s.nextThumb

/-- `T_PUSH` (R467). -/
def execTPush (r : Bool) (list : BitVec 8) (s : State) : Outcome :=
  let regs := thumbList list (if r then some regLR else none)
  thumbGate (regSP :: regs) s fun s =>
    unpredIf s regs.isEmpty .tEmptyList <|
      let base := s.x regSP - thumbBlockSize regs
      orFault (storeList base ((thumbMoved regs).map (thumbStored s)) s) fun s1 =>
        .next (s1.setX regSP base).nextThumb

/-- `T_POP` (R468). -/
def execTPop (r : Bool) (list : BitVec 8) (s : State) : Outcome :=
  let regs := thumbList list (if r then some regPC else none)
  thumbGate (regSP :: regs) s fun s =>
    unpredIf s regs.isEmpty .tEmptyList <|
      let base := s.x regSP
      let (loaded, s1) := loadList base (thumbMoved regs) s
      thumbLoadFinish loaded ((writeLoaded State.setX loaded s1).setX regSP (base + thumbBlockSize regs))

/-- What STMIA stores for a register: the base, where it is not the lowest of the list, as the write-back value
(R469). -/
def thumbStmValue (rb : LowReg) (list : BitVec 8) (after : Word) (s : State) (r : Reg) : Word :=
  if baseNotLowest (low rb) list && r == low rb then after else thumbStored s r

/-- `T_STMIA` (R469). -/
def execTStmia (rb : LowReg) (list : BitVec 8) (s : State) : Outcome :=
  let regs := thumbList list none
  thumbGate (low rb :: regs) s fun s =>
    unpredIf s regs.isEmpty .tEmptyList <|
    unpredIf s (baseNotLowest (low rb) list) .stmWbBaseNotLowest <|
      let base := s.x (low rb)
      let after := base + thumbBlockSize regs
      orFault (storeList base ((thumbMoved regs).map (thumbStmValue rb list after s)) s) fun s1 =>
        .next (s1.setX (low rb) after).nextThumb

/-- `T_LDMIA` (R470): a base in the list keeps the loaded value. -/
def execTLdmia (rb : LowReg) (list : BitVec 8) (s : State) : Outcome :=
  let regs := thumbList list none
  thumbGate (low rb :: regs) s fun s =>
    unpredIf s regs.isEmpty .tEmptyList <|
      let base := s.x (low rb)
      let (loaded, s1) := loadList base (thumbMoved regs) s
      let s2 := writeLoaded State.setX loaded s1
      thumbLoadFinish loaded
        (if inList (low rb) list then s2 else s2.setX (low rb) (base + thumbBlockSize regs))

-- Branches and the software interrupt

/-- `T_B_cond` (R472). -/
def execTBCond (cond : Cond) (soff8 : BitVec 8) (s : State) : Outcome :=
  thumbGate [] s fun s =>
    if condPassed cond s.cpsr then .next (s.setPc (s.pc + 4 + branchOffset8 soff8)) else .next s.nextThumb

/-- `T_SWI` (R473); the value field is ignored. -/
def execTSwi (_value8 : BitVec 8) (s : State) : Outcome :=
  thumbGate (entryRegs .softwareInterrupt s) s (raiseThumb .softwareInterrupt)

/-- `T_B` (R474). -/
def execTB (off11 : BitVec 11) (s : State) : Outcome :=
  thumbGate [] s fun s => .next (s.setPc (s.pc + 4 + branchOffset11 off11))

/-- `T_BL_hi` (R475). -/
def execTBlHi (off11 : BitVec 11) (s : State) : Outcome :=
  thumbGate [regLR] s fun s => .next (s.setX regLR (s.pc + 4 + off11.signExtend 32 <<< 12)).nextThumb

/-- `T_BL_lo` (R476). -/
def execTBlLo (off11 : BitVec 11) (s : State) : Outcome :=
  thumbGate [regLR] s fun s =>
    .next ((s.setX regLR ((s.pc + 2) ||| 1)).setPc (align2 (s.x regLR + scaled off11 1)))

end Sys2Proof.Machine
end

