-- ==== Sys2Proof/Machine/Dispatch.lean ====
section
/-!
DEFINITION. The meaning of every instruction: one arm per constructor of `Instr`, each one call of its meaning.
-/

namespace Sys2Proof.Machine

/-- Execute one instruction. -/
def exec (i : Instr) (s : State) : Host.Outcome State Fault Refusal :=
  match i with
  | .andImm c sf rn rd rot imm8 => Sys2Proof.Machine.execAndImm c sf rn rd rot imm8 s
  | .andRsi c sf rn rd amt sh rm => Sys2Proof.Machine.execAndRsi c sf rn rd amt sh rm s
  | .andRsr c sf rn rd rs sh rm => Sys2Proof.Machine.execAndRsr c sf rn rd rs sh rm s
  | .eorImm c sf rn rd rot imm8 => Sys2Proof.Machine.execEorImm c sf rn rd rot imm8 s
  | .eorRsi c sf rn rd amt sh rm => Sys2Proof.Machine.execEorRsi c sf rn rd amt sh rm s
  | .eorRsr c sf rn rd rs sh rm => Sys2Proof.Machine.execEorRsr c sf rn rd rs sh rm s
  | .subImm c sf rn rd rot imm8 => Sys2Proof.Machine.execSubImm c sf rn rd rot imm8 s
  | .subRsi c sf rn rd amt sh rm => Sys2Proof.Machine.execSubRsi c sf rn rd amt sh rm s
  | .subRsr c sf rn rd rs sh rm => Sys2Proof.Machine.execSubRsr c sf rn rd rs sh rm s
  | .rsbImm c sf rn rd rot imm8 => Sys2Proof.Machine.execRsbImm c sf rn rd rot imm8 s
  | .rsbRsi c sf rn rd amt sh rm => Sys2Proof.Machine.execRsbRsi c sf rn rd amt sh rm s
  | .rsbRsr c sf rn rd rs sh rm => Sys2Proof.Machine.execRsbRsr c sf rn rd rs sh rm s
  | .addImm c sf rn rd rot imm8 => Sys2Proof.Machine.execAddImm c sf rn rd rot imm8 s
  | .addRsi c sf rn rd amt sh rm => Sys2Proof.Machine.execAddRsi c sf rn rd amt sh rm s
  | .addRsr c sf rn rd rs sh rm => Sys2Proof.Machine.execAddRsr c sf rn rd rs sh rm s
  | .adcImm c sf rn rd rot imm8 => Sys2Proof.Machine.execAdcImm c sf rn rd rot imm8 s
  | .adcRsi c sf rn rd amt sh rm => Sys2Proof.Machine.execAdcRsi c sf rn rd amt sh rm s
  | .adcRsr c sf rn rd rs sh rm => Sys2Proof.Machine.execAdcRsr c sf rn rd rs sh rm s
  | .sbcImm c sf rn rd rot imm8 => Sys2Proof.Machine.execSbcImm c sf rn rd rot imm8 s
  | .sbcRsi c sf rn rd amt sh rm => Sys2Proof.Machine.execSbcRsi c sf rn rd amt sh rm s
  | .sbcRsr c sf rn rd rs sh rm => Sys2Proof.Machine.execSbcRsr c sf rn rd rs sh rm s
  | .rscImm c sf rn rd rot imm8 => Sys2Proof.Machine.execRscImm c sf rn rd rot imm8 s
  | .rscRsi c sf rn rd amt sh rm => Sys2Proof.Machine.execRscRsi c sf rn rd amt sh rm s
  | .rscRsr c sf rn rd rs sh rm => Sys2Proof.Machine.execRscRsr c sf rn rd rs sh rm s
  | .tstImm c rn sbz rot imm8 => Sys2Proof.Machine.execTstImm c rn sbz rot imm8 s
  | .tstRsi c rn sbz amt sh rm => Sys2Proof.Machine.execTstRsi c rn sbz amt sh rm s
  | .tstRsr c rn sbz rs sh rm => Sys2Proof.Machine.execTstRsr c rn sbz rs sh rm s
  | .teqImm c rn sbz rot imm8 => Sys2Proof.Machine.execTeqImm c rn sbz rot imm8 s
  | .teqRsi c rn sbz amt sh rm => Sys2Proof.Machine.execTeqRsi c rn sbz amt sh rm s
  | .teqRsr c rn sbz rs sh rm => Sys2Proof.Machine.execTeqRsr c rn sbz rs sh rm s
  | .cmpImm c rn sbz rot imm8 => Sys2Proof.Machine.execCmpImm c rn sbz rot imm8 s
  | .cmpRsi c rn sbz amt sh rm => Sys2Proof.Machine.execCmpRsi c rn sbz amt sh rm s
  | .cmpRsr c rn sbz rs sh rm => Sys2Proof.Machine.execCmpRsr c rn sbz rs sh rm s
  | .cmnImm c rn sbz rot imm8 => Sys2Proof.Machine.execCmnImm c rn sbz rot imm8 s
  | .cmnRsi c rn sbz amt sh rm => Sys2Proof.Machine.execCmnRsi c rn sbz amt sh rm s
  | .cmnRsr c rn sbz rs sh rm => Sys2Proof.Machine.execCmnRsr c rn sbz rs sh rm s
  | .orrImm c sf rn rd rot imm8 => Sys2Proof.Machine.execOrrImm c sf rn rd rot imm8 s
  | .orrRsi c sf rn rd amt sh rm => Sys2Proof.Machine.execOrrRsi c sf rn rd amt sh rm s
  | .orrRsr c sf rn rd rs sh rm => Sys2Proof.Machine.execOrrRsr c sf rn rd rs sh rm s
  | .movImm c sf sbz rd rot imm8 => Sys2Proof.Machine.execMovImm c sf sbz rd rot imm8 s
  | .movRsi c sf sbz rd amt sh rm => Sys2Proof.Machine.execMovRsi c sf sbz rd amt sh rm s
  | .movRsr c sf sbz rd rs sh rm => Sys2Proof.Machine.execMovRsr c sf sbz rd rs sh rm s
  | .bicImm c sf rn rd rot imm8 => Sys2Proof.Machine.execBicImm c sf rn rd rot imm8 s
  | .bicRsi c sf rn rd amt sh rm => Sys2Proof.Machine.execBicRsi c sf rn rd amt sh rm s
  | .bicRsr c sf rn rd rs sh rm => Sys2Proof.Machine.execBicRsr c sf rn rd rs sh rm s
  | .mvnImm c sf sbz rd rot imm8 => Sys2Proof.Machine.execMvnImm c sf sbz rd rot imm8 s
  | .mvnRsi c sf sbz rd amt sh rm => Sys2Proof.Machine.execMvnRsi c sf sbz rd amt sh rm s
  | .mvnRsr c sf sbz rd rs sh rm => Sys2Proof.Machine.execMvnRsr c sf sbz rd rs sh rm s
  | .mul c sf rd sbz rs rm => Sys2Proof.Machine.execMul c sf rd sbz rs rm s
  | .mla c sf rd rn rs rm => Sys2Proof.Machine.execMla c sf rd rn rs rm s
  | .umull c sf rdHi rdLo rs rm => Sys2Proof.Machine.execUmull c sf rdHi rdLo rs rm s
  | .umlal c sf rdHi rdLo rs rm => Sys2Proof.Machine.execUmlal c sf rdHi rdLo rs rm s
  | .smull c sf rdHi rdLo rs rm => Sys2Proof.Machine.execSmull c sf rdHi rdLo rs rm s
  | .smlal c sf rdHi rdLo rs rm => Sys2Proof.Machine.execSmlal c sf rdHi rdLo rs rm s
  | .mrs c r sbo rd sbzA sbzB sbzC => Sys2Proof.Machine.execMrs c r sbo rd sbzA sbzB sbzC s
  | .msrReg c r mask sbo sbzA sbzB rm => Sys2Proof.Machine.execMsrReg c r mask sbo sbzA sbzB rm s
  | .msrImm c r mask sbo rot imm8 => Sys2Proof.Machine.execMsrImm c r mask sbo rot imm8 s
  | .swp c rn rd sbz rm => Sys2Proof.Machine.execSwp c rn rd sbz rm s
  | .swpb c rn rd sbz rm => Sys2Proof.Machine.execSwpb c rn rd sbz rm s
  | .bx c sbo rm => Sys2Proof.Machine.execBx c sbo rm s
  | .strhReg c p u w rn rd sbz rm => Sys2Proof.Machine.execStrhReg c p u w rn rd sbz rm s
  | .strhImm c p u w rn rd immH immL => Sys2Proof.Machine.execStrhImm c p u w rn rd immH immL s
  | .ldrhReg c p u w rn rd sbz rm => Sys2Proof.Machine.execLdrhReg c p u w rn rd sbz rm s
  | .ldrhImm c p u w rn rd immH immL => Sys2Proof.Machine.execLdrhImm c p u w rn rd immH immL s
  | .ldrsbReg c p u w rn rd sbz rm => Sys2Proof.Machine.execLdrsbReg c p u w rn rd sbz rm s
  | .ldrsbImm c p u w rn rd immH immL => Sys2Proof.Machine.execLdrsbImm c p u w rn rd immH immL s
  | .ldrshReg c p u w rn rd sbz rm => Sys2Proof.Machine.execLdrshReg c p u w rn rd sbz rm s
  | .ldrshImm c p u w rn rd immH immL => Sys2Proof.Machine.execLdrshImm c p u w rn rd immH immL s
  | .ldrImmPre c u w rn rd imm12 => Sys2Proof.Machine.execLdrImmPre c u w rn rd imm12 s
  | .ldrImmPost c u rn rd imm12 => Sys2Proof.Machine.execLdrImmPost c u rn rd imm12 s
  | .ldrRegPre c u w rn rd amt sh rm => Sys2Proof.Machine.execLdrRegPre c u w rn rd amt sh rm s
  | .ldrRegPost c u rn rd amt sh rm => Sys2Proof.Machine.execLdrRegPost c u rn rd amt sh rm s
  | .strImmPre c u w rn rd imm12 => Sys2Proof.Machine.execStrImmPre c u w rn rd imm12 s
  | .strImmPost c u rn rd imm12 => Sys2Proof.Machine.execStrImmPost c u rn rd imm12 s
  | .strRegPre c u w rn rd amt sh rm => Sys2Proof.Machine.execStrRegPre c u w rn rd amt sh rm s
  | .strRegPost c u rn rd amt sh rm => Sys2Proof.Machine.execStrRegPost c u rn rd amt sh rm s
  | .ldrbImmPre c u w rn rd imm12 => Sys2Proof.Machine.execLdrbImmPre c u w rn rd imm12 s
  | .ldrbImmPost c u rn rd imm12 => Sys2Proof.Machine.execLdrbImmPost c u rn rd imm12 s
  | .ldrbRegPre c u w rn rd amt sh rm => Sys2Proof.Machine.execLdrbRegPre c u w rn rd amt sh rm s
  | .ldrbRegPost c u rn rd amt sh rm => Sys2Proof.Machine.execLdrbRegPost c u rn rd amt sh rm s
  | .strbImmPre c u w rn rd imm12 => Sys2Proof.Machine.execStrbImmPre c u w rn rd imm12 s
  | .strbImmPost c u rn rd imm12 => Sys2Proof.Machine.execStrbImmPost c u rn rd imm12 s
  | .strbRegPre c u w rn rd amt sh rm => Sys2Proof.Machine.execStrbRegPre c u w rn rd amt sh rm s
  | .strbRegPost c u rn rd amt sh rm => Sys2Proof.Machine.execStrbRegPost c u rn rd amt sh rm s
  | .ldrtImm c u rn rd imm12 => Sys2Proof.Machine.execLdrtImm c u rn rd imm12 s
  | .ldrtReg c u rn rd amt sh rm => Sys2Proof.Machine.execLdrtReg c u rn rd amt sh rm s
  | .strtImm c u rn rd imm12 => Sys2Proof.Machine.execStrtImm c u rn rd imm12 s
  | .strtReg c u rn rd amt sh rm => Sys2Proof.Machine.execStrtReg c u rn rd amt sh rm s
  | .ldrbtImm c u rn rd imm12 => Sys2Proof.Machine.execLdrbtImm c u rn rd imm12 s
  | .ldrbtReg c u rn rd amt sh rm => Sys2Proof.Machine.execLdrbtReg c u rn rd amt sh rm s
  | .strbtImm c u rn rd imm12 => Sys2Proof.Machine.execStrbtImm c u rn rd imm12 s
  | .strbtReg c u rn rd amt sh rm => Sys2Proof.Machine.execStrbtReg c u rn rd amt sh rm s
  | .und c hi lo => Sys2Proof.Machine.execUnd c hi lo s
  | .ldm c p u w rn list => Sys2Proof.Machine.execLdm c p u w rn list s
  | .stm c p u w rn list => Sys2Proof.Machine.execStm c p u w rn list s
  | .ldmUsr c p u w rn list => Sys2Proof.Machine.execLdmUsr c p u w rn list s
  | .ldmRet c p u w rn list => Sys2Proof.Machine.execLdmRet c p u w rn list s
  | .stmUsr c p u w rn list => Sys2Proof.Machine.execStmUsr c p u w rn list s
  | .b c off => Sys2Proof.Machine.execB c off s
  | .bl c off => Sys2Proof.Machine.execBl c off s
  | .ldc c p u n w rn crd cp off8 => Sys2Proof.Machine.execLdc c p u n w rn crd cp off8 s
  | .stc c p u n w rn crd cp off8 => Sys2Proof.Machine.execStc c p u n w rn crd cp off8 s
  | .cdp c op1 crn crd cp op2 crm => Sys2Proof.Machine.execCdp c op1 crn crd cp op2 crm s
  | .mcr c op1 crn rd cp op2 crm => Sys2Proof.Machine.execMcr c op1 crn rd cp op2 crm s
  | .mrc c op1 crn rd cp op2 crm => Sys2Proof.Machine.execMrc c op1 crn rd cp op2 crm s
  | .swi c comment => Sys2Proof.Machine.execSwi c comment s
  | .tLslImm off5 rs rd => Sys2Proof.Machine.execTLslImm off5 rs rd s
  | .tLsrImm off5 rs rd => Sys2Proof.Machine.execTLsrImm off5 rs rd s
  | .tAsrImm off5 rs rd => Sys2Proof.Machine.execTAsrImm off5 rs rd s
  | .tAddReg rn rs rd => Sys2Proof.Machine.execTAddReg rn rs rd s
  | .tSubReg rn rs rd => Sys2Proof.Machine.execTSubReg rn rs rd s
  | .tAddImm3 imm3 rs rd => Sys2Proof.Machine.execTAddImm3 imm3 rs rd s
  | .tSubImm3 imm3 rs rd => Sys2Proof.Machine.execTSubImm3 imm3 rs rd s
  | .tMovImm rd imm8 => Sys2Proof.Machine.execTMovImm rd imm8 s
  | .tCmpImm rd imm8 => Sys2Proof.Machine.execTCmpImm rd imm8 s
  | .tAddImm8 rd imm8 => Sys2Proof.Machine.execTAddImm8 rd imm8 s
  | .tSubImm8 rd imm8 => Sys2Proof.Machine.execTSubImm8 rd imm8 s
  | .tAnd rs rd => Sys2Proof.Machine.execTAnd rs rd s
  | .tEor rs rd => Sys2Proof.Machine.execTEor rs rd s
  | .tLslReg rs rd => Sys2Proof.Machine.execTLslReg rs rd s
  | .tLsrReg rs rd => Sys2Proof.Machine.execTLsrReg rs rd s
  | .tAsrReg rs rd => Sys2Proof.Machine.execTAsrReg rs rd s
  | .tAdc rs rd => Sys2Proof.Machine.execTAdc rs rd s
  | .tSbc rs rd => Sys2Proof.Machine.execTSbc rs rd s
  | .tRor rs rd => Sys2Proof.Machine.execTRor rs rd s
  | .tTst rs rd => Sys2Proof.Machine.execTTst rs rd s
  | .tNeg rs rd => Sys2Proof.Machine.execTNeg rs rd s
  | .tCmpReg rs rd => Sys2Proof.Machine.execTCmpReg rs rd s
  | .tCmn rs rd => Sys2Proof.Machine.execTCmn rs rd s
  | .tOrr rs rd => Sys2Proof.Machine.execTOrr rs rd s
  | .tMul rs rd => Sys2Proof.Machine.execTMul rs rd s
  | .tBic rs rd => Sys2Proof.Machine.execTBic rs rd s
  | .tMvn rs rd => Sys2Proof.Machine.execTMvn rs rd s
  | .tAddHi h1 h2 rs rd => Sys2Proof.Machine.execTAddHi h1 h2 rs rd s
  | .tCmpHi h1 h2 rs rd => Sys2Proof.Machine.execTCmpHi h1 h2 rs rd s
  | .tMovHi h1 h2 rs rd => Sys2Proof.Machine.execTMovHi h1 h2 rs rd s
  | .tBx sbzA h2 rs sbzB => Sys2Proof.Machine.execTBx sbzA h2 rs sbzB s
  | .tLdrPc rd word8 => Sys2Proof.Machine.execTLdrPc rd word8 s
  | .tStrReg ro rb rd => Sys2Proof.Machine.execTStrReg ro rb rd s
  | .tStrbReg ro rb rd => Sys2Proof.Machine.execTStrbReg ro rb rd s
  | .tLdrReg ro rb rd => Sys2Proof.Machine.execTLdrReg ro rb rd s
  | .tLdrbReg ro rb rd => Sys2Proof.Machine.execTLdrbReg ro rb rd s
  | .tStrhReg ro rb rd => Sys2Proof.Machine.execTStrhReg ro rb rd s
  | .tLdsb ro rb rd => Sys2Proof.Machine.execTLdsb ro rb rd s
  | .tLdrhReg ro rb rd => Sys2Proof.Machine.execTLdrhReg ro rb rd s
  | .tLdsh ro rb rd => Sys2Proof.Machine.execTLdsh ro rb rd s
  | .tStrImm off5 rb rd => Sys2Proof.Machine.execTStrImm off5 rb rd s
  | .tLdrImm off5 rb rd => Sys2Proof.Machine.execTLdrImm off5 rb rd s
  | .tStrbImm off5 rb rd => Sys2Proof.Machine.execTStrbImm off5 rb rd s
  | .tLdrbImm off5 rb rd => Sys2Proof.Machine.execTLdrbImm off5 rb rd s
  | .tStrhImm off5 rb rd => Sys2Proof.Machine.execTStrhImm off5 rb rd s
  | .tLdrhImm off5 rb rd => Sys2Proof.Machine.execTLdrhImm off5 rb rd s
  | .tStrSp rd word8 => Sys2Proof.Machine.execTStrSp rd word8 s
  | .tLdrSp rd word8 => Sys2Proof.Machine.execTLdrSp rd word8 s
  | .tAddPc rd word8 => Sys2Proof.Machine.execTAddPc rd word8 s
  | .tAddSp rd word8 => Sys2Proof.Machine.execTAddSp rd word8 s
  | .tAddSpImm sf sword7 => Sys2Proof.Machine.execTAddSpImm sf sword7 s
  | .tPush r list => Sys2Proof.Machine.execTPush r list s
  | .tPop r list => Sys2Proof.Machine.execTPop r list s
  | .tStmia rb list => Sys2Proof.Machine.execTStmia rb list s
  | .tLdmia rb list => Sys2Proof.Machine.execTLdmia rb list s
  | .tBCond cond soff8 => Sys2Proof.Machine.execTBCond cond soff8 s
  | .tSwi value8 => Sys2Proof.Machine.execTSwi value8 s
  | .tB off11 => Sys2Proof.Machine.execTB off11 s
  | .tBlHi off11 => Sys2Proof.Machine.execTBlHi off11 s
  | .tBlLo off11 => Sys2Proof.Machine.execTBlLo off11 s

end Sys2Proof.Machine
end

