-- ==== Sys2Proof/Decode.lean ====
section
/-!
DEFINITION. The decoder of spec/30_encoding.md rule R150, driven by the rows of spec/opcode_table.json, and the
encoder, written from the same formats.  Decoding is total: a word that matches no row, and a byte list that is too
short, are rejected by name.
-/

namespace Sys2Proof

/-- Why a word is not an instruction of the table. -/
inductive DecodeError where
  /-- An ARM word that matches no row (R170). -/
  | unallocatedArm (w : BitVec 32)
  /-- A Thumb halfword that matches no row (R171). -/
  | unallocatedThumb (h : BitVec 16)
  /-- Fewer bytes than one instruction. -/
  | truncated
  deriving DecidableEq, Repr

/-- The condition with the given field value (R200). -/
def Cond.ofBits (b : BitVec 4) : Cond :=
  match b with
  | 0b0000#4 => .eq
  | 0b0001#4 => .ne
  | 0b0010#4 => .cs
  | 0b0011#4 => .cc
  | 0b0100#4 => .mi
  | 0b0101#4 => .pl
  | 0b0110#4 => .vs
  | 0b0111#4 => .vc
  | 0b1000#4 => .hi
  | 0b1001#4 => .ls
  | 0b1010#4 => .ge
  | 0b1011#4 => .lt
  | 0b1100#4 => .gt
  | 0b1101#4 => .le
  | 0b1110#4 => .al
  | _ => .nv

/-- The field value of a condition (R200). -/
def Cond.bits : Cond → BitVec 4
  | .eq => 0b0000
  | .ne => 0b0001
  | .cs => 0b0010
  | .cc => 0b0011
  | .mi => 0b0100
  | .pl => 0b0101
  | .vs => 0b0110
  | .vc => 0b0111
  | .hi => 0b1000
  | .ls => 0b1001
  | .ge => 0b1010
  | .lt => 0b1011
  | .gt => 0b1100
  | .le => 0b1101
  | .al => 0b1110
  | .nv => 0b1111

/-- The shift with the given field value (R135). -/
def Shift.ofBits (b : BitVec 2) : Shift :=
  match b with
  | 0b00#2 => .lsl
  | 0b01#2 => .lsr
  | 0b10#2 => .asr
  | _ => .ror

/-- The field value of a shift (R135). -/
def Shift.bits : Shift → BitVec 2
  | .lsl => 0b00
  | .lsr => 0b01
  | .asr => 0b10
  | .ror => 0b11

/-- The condition field whose lowest bit is `lo`. -/
def condAt {n : Nat} (w : BitVec n) (lo : Nat) : Cond := Cond.ofBits (w.extractLsb' lo 4)

/-- The shift field whose lowest bit is `lo`. -/
def shiftAt {n : Nat} (w : BitVec n) (lo : Nat) : Shift := Shift.ofBits (w.extractLsb' lo 2)

/-- One row of the opcode table: a word matches when `(word AND mask) = pattern` (R150); `build` reads its fields. -/
structure Row (n : Nat) where
  mask : BitVec n
  pattern : BitVec n
  build : BitVec n → Instr

/-- The data-processing rows, AND to MVN (formats A1, A2, A3). -/
def armDataRows : List (Row 32) := [
  -- `AND_imm`
  ⟨0x0FE00000, 0x02000000, fun w => .andImm (condAt w 28) (w.getLsbD 20) (w.extractLsb' 16 4) (w.extractLsb' 12 4) (w.extractLsb' 8 4) (w.extractLsb' 0 8)⟩,
  -- `AND_rsi`
  ⟨0x0FE00010, 0x00000000, fun w => .andRsi (condAt w 28) (w.getLsbD 20) (w.extractLsb' 16 4) (w.extractLsb' 12 4) (w.extractLsb' 7 5) (shiftAt w 5) (w.extractLsb' 0 4)⟩,
  -- `AND_rsr`
  ⟨0x0FE00090, 0x00000010, fun w => .andRsr (condAt w 28) (w.getLsbD 20) (w.extractLsb' 16 4) (w.extractLsb' 12 4) (w.extractLsb' 8 4) (shiftAt w 5) (w.extractLsb' 0 4)⟩,
  -- `EOR_imm`
  ⟨0x0FE00000, 0x02200000, fun w => .eorImm (condAt w 28) (w.getLsbD 20) (w.extractLsb' 16 4) (w.extractLsb' 12 4) (w.extractLsb' 8 4) (w.extractLsb' 0 8)⟩,
  -- `EOR_rsi`
  ⟨0x0FE00010, 0x00200000, fun w => .eorRsi (condAt w 28) (w.getLsbD 20) (w.extractLsb' 16 4) (w.extractLsb' 12 4) (w.extractLsb' 7 5) (shiftAt w 5) (w.extractLsb' 0 4)⟩,
  -- `EOR_rsr`
  ⟨0x0FE00090, 0x00200010, fun w => .eorRsr (condAt w 28) (w.getLsbD 20) (w.extractLsb' 16 4) (w.extractLsb' 12 4) (w.extractLsb' 8 4) (shiftAt w 5) (w.extractLsb' 0 4)⟩,
  -- `SUB_imm`
  ⟨0x0FE00000, 0x02400000, fun w => .subImm (condAt w 28) (w.getLsbD 20) (w.extractLsb' 16 4) (w.extractLsb' 12 4) (w.extractLsb' 8 4) (w.extractLsb' 0 8)⟩,
  -- `SUB_rsi`
  ⟨0x0FE00010, 0x00400000, fun w => .subRsi (condAt w 28) (w.getLsbD 20) (w.extractLsb' 16 4) (w.extractLsb' 12 4) (w.extractLsb' 7 5) (shiftAt w 5) (w.extractLsb' 0 4)⟩,
  -- `SUB_rsr`
  ⟨0x0FE00090, 0x00400010, fun w => .subRsr (condAt w 28) (w.getLsbD 20) (w.extractLsb' 16 4) (w.extractLsb' 12 4) (w.extractLsb' 8 4) (shiftAt w 5) (w.extractLsb' 0 4)⟩,
  -- `RSB_imm`
  ⟨0x0FE00000, 0x02600000, fun w => .rsbImm (condAt w 28) (w.getLsbD 20) (w.extractLsb' 16 4) (w.extractLsb' 12 4) (w.extractLsb' 8 4) (w.extractLsb' 0 8)⟩,
  -- `RSB_rsi`
  ⟨0x0FE00010, 0x00600000, fun w => .rsbRsi (condAt w 28) (w.getLsbD 20) (w.extractLsb' 16 4) (w.extractLsb' 12 4) (w.extractLsb' 7 5) (shiftAt w 5) (w.extractLsb' 0 4)⟩,
  -- `RSB_rsr`
  ⟨0x0FE00090, 0x00600010, fun w => .rsbRsr (condAt w 28) (w.getLsbD 20) (w.extractLsb' 16 4) (w.extractLsb' 12 4) (w.extractLsb' 8 4) (shiftAt w 5) (w.extractLsb' 0 4)⟩,
  -- `ADD_imm`
  ⟨0x0FE00000, 0x02800000, fun w => .addImm (condAt w 28) (w.getLsbD 20) (w.extractLsb' 16 4) (w.extractLsb' 12 4) (w.extractLsb' 8 4) (w.extractLsb' 0 8)⟩,
  -- `ADD_rsi`
  ⟨0x0FE00010, 0x00800000, fun w => .addRsi (condAt w 28) (w.getLsbD 20) (w.extractLsb' 16 4) (w.extractLsb' 12 4) (w.extractLsb' 7 5) (shiftAt w 5) (w.extractLsb' 0 4)⟩,
  -- `ADD_rsr`
  ⟨0x0FE00090, 0x00800010, fun w => .addRsr (condAt w 28) (w.getLsbD 20) (w.extractLsb' 16 4) (w.extractLsb' 12 4) (w.extractLsb' 8 4) (shiftAt w 5) (w.extractLsb' 0 4)⟩,
  -- `ADC_imm`
  ⟨0x0FE00000, 0x02A00000, fun w => .adcImm (condAt w 28) (w.getLsbD 20) (w.extractLsb' 16 4) (w.extractLsb' 12 4) (w.extractLsb' 8 4) (w.extractLsb' 0 8)⟩,
  -- `ADC_rsi`
  ⟨0x0FE00010, 0x00A00000, fun w => .adcRsi (condAt w 28) (w.getLsbD 20) (w.extractLsb' 16 4) (w.extractLsb' 12 4) (w.extractLsb' 7 5) (shiftAt w 5) (w.extractLsb' 0 4)⟩,
  -- `ADC_rsr`
  ⟨0x0FE00090, 0x00A00010, fun w => .adcRsr (condAt w 28) (w.getLsbD 20) (w.extractLsb' 16 4) (w.extractLsb' 12 4) (w.extractLsb' 8 4) (shiftAt w 5) (w.extractLsb' 0 4)⟩,
  -- `SBC_imm`
  ⟨0x0FE00000, 0x02C00000, fun w => .sbcImm (condAt w 28) (w.getLsbD 20) (w.extractLsb' 16 4) (w.extractLsb' 12 4) (w.extractLsb' 8 4) (w.extractLsb' 0 8)⟩,
  -- `SBC_rsi`
  ⟨0x0FE00010, 0x00C00000, fun w => .sbcRsi (condAt w 28) (w.getLsbD 20) (w.extractLsb' 16 4) (w.extractLsb' 12 4) (w.extractLsb' 7 5) (shiftAt w 5) (w.extractLsb' 0 4)⟩,
  -- `SBC_rsr`
  ⟨0x0FE00090, 0x00C00010, fun w => .sbcRsr (condAt w 28) (w.getLsbD 20) (w.extractLsb' 16 4) (w.extractLsb' 12 4) (w.extractLsb' 8 4) (shiftAt w 5) (w.extractLsb' 0 4)⟩,
  -- `RSC_imm`
  ⟨0x0FE00000, 0x02E00000, fun w => .rscImm (condAt w 28) (w.getLsbD 20) (w.extractLsb' 16 4) (w.extractLsb' 12 4) (w.extractLsb' 8 4) (w.extractLsb' 0 8)⟩,
  -- `RSC_rsi`
  ⟨0x0FE00010, 0x00E00000, fun w => .rscRsi (condAt w 28) (w.getLsbD 20) (w.extractLsb' 16 4) (w.extractLsb' 12 4) (w.extractLsb' 7 5) (shiftAt w 5) (w.extractLsb' 0 4)⟩,
  -- `RSC_rsr`
  ⟨0x0FE00090, 0x00E00010, fun w => .rscRsr (condAt w 28) (w.getLsbD 20) (w.extractLsb' 16 4) (w.extractLsb' 12 4) (w.extractLsb' 8 4) (shiftAt w 5) (w.extractLsb' 0 4)⟩,
  -- `TST_imm`
  ⟨0x0FF00000, 0x03100000, fun w => .tstImm (condAt w 28) (w.extractLsb' 16 4) (w.extractLsb' 12 4) (w.extractLsb' 8 4) (w.extractLsb' 0 8)⟩,
  -- `TST_rsi`
  ⟨0x0FF00010, 0x01100000, fun w => .tstRsi (condAt w 28) (w.extractLsb' 16 4) (w.extractLsb' 12 4) (w.extractLsb' 7 5) (shiftAt w 5) (w.extractLsb' 0 4)⟩,
  -- `TST_rsr`
  ⟨0x0FF00090, 0x01100010, fun w => .tstRsr (condAt w 28) (w.extractLsb' 16 4) (w.extractLsb' 12 4) (w.extractLsb' 8 4) (shiftAt w 5) (w.extractLsb' 0 4)⟩,
  -- `TEQ_imm`
  ⟨0x0FF00000, 0x03300000, fun w => .teqImm (condAt w 28) (w.extractLsb' 16 4) (w.extractLsb' 12 4) (w.extractLsb' 8 4) (w.extractLsb' 0 8)⟩,
  -- `TEQ_rsi`
  ⟨0x0FF00010, 0x01300000, fun w => .teqRsi (condAt w 28) (w.extractLsb' 16 4) (w.extractLsb' 12 4) (w.extractLsb' 7 5) (shiftAt w 5) (w.extractLsb' 0 4)⟩,
  -- `TEQ_rsr`
  ⟨0x0FF00090, 0x01300010, fun w => .teqRsr (condAt w 28) (w.extractLsb' 16 4) (w.extractLsb' 12 4) (w.extractLsb' 8 4) (shiftAt w 5) (w.extractLsb' 0 4)⟩,
  -- `CMP_imm`
  ⟨0x0FF00000, 0x03500000, fun w => .cmpImm (condAt w 28) (w.extractLsb' 16 4) (w.extractLsb' 12 4) (w.extractLsb' 8 4) (w.extractLsb' 0 8)⟩,
  -- `CMP_rsi`
  ⟨0x0FF00010, 0x01500000, fun w => .cmpRsi (condAt w 28) (w.extractLsb' 16 4) (w.extractLsb' 12 4) (w.extractLsb' 7 5) (shiftAt w 5) (w.extractLsb' 0 4)⟩,
  -- `CMP_rsr`
  ⟨0x0FF00090, 0x01500010, fun w => .cmpRsr (condAt w 28) (w.extractLsb' 16 4) (w.extractLsb' 12 4) (w.extractLsb' 8 4) (shiftAt w 5) (w.extractLsb' 0 4)⟩,
  -- `CMN_imm`
  ⟨0x0FF00000, 0x03700000, fun w => .cmnImm (condAt w 28) (w.extractLsb' 16 4) (w.extractLsb' 12 4) (w.extractLsb' 8 4) (w.extractLsb' 0 8)⟩,
  -- `CMN_rsi`
  ⟨0x0FF00010, 0x01700000, fun w => .cmnRsi (condAt w 28) (w.extractLsb' 16 4) (w.extractLsb' 12 4) (w.extractLsb' 7 5) (shiftAt w 5) (w.extractLsb' 0 4)⟩,
  -- `CMN_rsr`
  ⟨0x0FF00090, 0x01700010, fun w => .cmnRsr (condAt w 28) (w.extractLsb' 16 4) (w.extractLsb' 12 4) (w.extractLsb' 8 4) (shiftAt w 5) (w.extractLsb' 0 4)⟩,
  -- `ORR_imm`
  ⟨0x0FE00000, 0x03800000, fun w => .orrImm (condAt w 28) (w.getLsbD 20) (w.extractLsb' 16 4) (w.extractLsb' 12 4) (w.extractLsb' 8 4) (w.extractLsb' 0 8)⟩,
  -- `ORR_rsi`
  ⟨0x0FE00010, 0x01800000, fun w => .orrRsi (condAt w 28) (w.getLsbD 20) (w.extractLsb' 16 4) (w.extractLsb' 12 4) (w.extractLsb' 7 5) (shiftAt w 5) (w.extractLsb' 0 4)⟩,
  -- `ORR_rsr`
  ⟨0x0FE00090, 0x01800010, fun w => .orrRsr (condAt w 28) (w.getLsbD 20) (w.extractLsb' 16 4) (w.extractLsb' 12 4) (w.extractLsb' 8 4) (shiftAt w 5) (w.extractLsb' 0 4)⟩,
  -- `MOV_imm`
  ⟨0x0FE00000, 0x03A00000, fun w => .movImm (condAt w 28) (w.getLsbD 20) (w.extractLsb' 16 4) (w.extractLsb' 12 4) (w.extractLsb' 8 4) (w.extractLsb' 0 8)⟩,
  -- `MOV_rsi`
  ⟨0x0FE00010, 0x01A00000, fun w => .movRsi (condAt w 28) (w.getLsbD 20) (w.extractLsb' 16 4) (w.extractLsb' 12 4) (w.extractLsb' 7 5) (shiftAt w 5) (w.extractLsb' 0 4)⟩,
  -- `MOV_rsr`
  ⟨0x0FE00090, 0x01A00010, fun w => .movRsr (condAt w 28) (w.getLsbD 20) (w.extractLsb' 16 4) (w.extractLsb' 12 4) (w.extractLsb' 8 4) (shiftAt w 5) (w.extractLsb' 0 4)⟩,
  -- `BIC_imm`
  ⟨0x0FE00000, 0x03C00000, fun w => .bicImm (condAt w 28) (w.getLsbD 20) (w.extractLsb' 16 4) (w.extractLsb' 12 4) (w.extractLsb' 8 4) (w.extractLsb' 0 8)⟩,
  -- `BIC_rsi`
  ⟨0x0FE00010, 0x01C00000, fun w => .bicRsi (condAt w 28) (w.getLsbD 20) (w.extractLsb' 16 4) (w.extractLsb' 12 4) (w.extractLsb' 7 5) (shiftAt w 5) (w.extractLsb' 0 4)⟩,
  -- `BIC_rsr`
  ⟨0x0FE00090, 0x01C00010, fun w => .bicRsr (condAt w 28) (w.getLsbD 20) (w.extractLsb' 16 4) (w.extractLsb' 12 4) (w.extractLsb' 8 4) (shiftAt w 5) (w.extractLsb' 0 4)⟩,
  -- `MVN_imm`
  ⟨0x0FE00000, 0x03E00000, fun w => .mvnImm (condAt w 28) (w.getLsbD 20) (w.extractLsb' 16 4) (w.extractLsb' 12 4) (w.extractLsb' 8 4) (w.extractLsb' 0 8)⟩,
  -- `MVN_rsi`
  ⟨0x0FE00010, 0x01E00000, fun w => .mvnRsi (condAt w 28) (w.getLsbD 20) (w.extractLsb' 16 4) (w.extractLsb' 12 4) (w.extractLsb' 7 5) (shiftAt w 5) (w.extractLsb' 0 4)⟩,
  -- `MVN_rsr`
  ⟨0x0FE00090, 0x01E00010, fun w => .mvnRsr (condAt w 28) (w.getLsbD 20) (w.extractLsb' 16 4) (w.extractLsb' 12 4) (w.extractLsb' 8 4) (shiftAt w 5) (w.extractLsb' 0 4)⟩]

/-- The multiply, PSR-transfer, swap and BX rows (formats A4 to A10). -/
def armMiscRows : List (Row 32) := [
  -- `MUL`
  ⟨0x0FE000F0, 0x00000090, fun w => .mul (condAt w 28) (w.getLsbD 20) (w.extractLsb' 16 4) (w.extractLsb' 12 4) (w.extractLsb' 8 4) (w.extractLsb' 0 4)⟩,
  -- `MLA`
  ⟨0x0FE000F0, 0x00200090, fun w => .mla (condAt w 28) (w.getLsbD 20) (w.extractLsb' 16 4) (w.extractLsb' 12 4) (w.extractLsb' 8 4) (w.extractLsb' 0 4)⟩,
  -- `UMULL`
  ⟨0x0FE000F0, 0x00800090, fun w => .umull (condAt w 28) (w.getLsbD 20) (w.extractLsb' 16 4) (w.extractLsb' 12 4) (w.extractLsb' 8 4) (w.extractLsb' 0 4)⟩,
  -- `UMLAL`
  ⟨0x0FE000F0, 0x00A00090, fun w => .umlal (condAt w 28) (w.getLsbD 20) (w.extractLsb' 16 4) (w.extractLsb' 12 4) (w.extractLsb' 8 4) (w.extractLsb' 0 4)⟩,
  -- `SMULL`
  ⟨0x0FE000F0, 0x00C00090, fun w => .smull (condAt w 28) (w.getLsbD 20) (w.extractLsb' 16 4) (w.extractLsb' 12 4) (w.extractLsb' 8 4) (w.extractLsb' 0 4)⟩,
  -- `SMLAL`
  ⟨0x0FE000F0, 0x00E00090, fun w => .smlal (condAt w 28) (w.getLsbD 20) (w.extractLsb' 16 4) (w.extractLsb' 12 4) (w.extractLsb' 8 4) (w.extractLsb' 0 4)⟩,
  -- `MRS`
  ⟨0x0FB00090, 0x01000000, fun w => .mrs (condAt w 28) (w.getLsbD 22) (w.extractLsb' 16 4) (w.extractLsb' 12 4) (w.extractLsb' 8 4) (w.extractLsb' 5 2) (w.extractLsb' 0 4)⟩,
  -- `MSR_reg`
  ⟨0x0FB00090, 0x01200000, fun w => .msrReg (condAt w 28) (w.getLsbD 22) (w.extractLsb' 16 4) (w.extractLsb' 12 4) (w.extractLsb' 8 4) (w.extractLsb' 5 2) (w.extractLsb' 0 4)⟩,
  -- `MSR_imm`
  ⟨0x0FB00000, 0x03200000, fun w => .msrImm (condAt w 28) (w.getLsbD 22) (w.extractLsb' 16 4) (w.extractLsb' 12 4) (w.extractLsb' 8 4) (w.extractLsb' 0 8)⟩,
  -- `SWP`
  ⟨0x0FF000F0, 0x01000090, fun w => .swp (condAt w 28) (w.extractLsb' 16 4) (w.extractLsb' 12 4) (w.extractLsb' 8 4) (w.extractLsb' 0 4)⟩,
  -- `SWPB`
  ⟨0x0FF000F0, 0x01400090, fun w => .swpb (condAt w 28) (w.extractLsb' 16 4) (w.extractLsb' 12 4) (w.extractLsb' 8 4) (w.extractLsb' 0 4)⟩,
  -- `BX`
  ⟨0x0FF000F0, 0x01200010, fun w => .bx (condAt w 28) (w.extractLsb' 8 12) (w.extractLsb' 0 4)⟩]

/-- The halfword and signed-transfer rows (formats A11, A12). -/
def armHalfRows : List (Row 32) := [
  -- `STRH_reg`
  ⟨0x0E5000F0, 0x000000B0, fun w => .strhReg (condAt w 28) (w.getLsbD 24) (w.getLsbD 23) (w.getLsbD 21) (w.extractLsb' 16 4) (w.extractLsb' 12 4) (w.extractLsb' 8 4) (w.extractLsb' 0 4)⟩,
  -- `STRH_imm`
  ⟨0x0E5000F0, 0x004000B0, fun w => .strhImm (condAt w 28) (w.getLsbD 24) (w.getLsbD 23) (w.getLsbD 21) (w.extractLsb' 16 4) (w.extractLsb' 12 4) (w.extractLsb' 8 4) (w.extractLsb' 0 4)⟩,
  -- `LDRH_reg`
  ⟨0x0E5000F0, 0x001000B0, fun w => .ldrhReg (condAt w 28) (w.getLsbD 24) (w.getLsbD 23) (w.getLsbD 21) (w.extractLsb' 16 4) (w.extractLsb' 12 4) (w.extractLsb' 8 4) (w.extractLsb' 0 4)⟩,
  -- `LDRH_imm`
  ⟨0x0E5000F0, 0x005000B0, fun w => .ldrhImm (condAt w 28) (w.getLsbD 24) (w.getLsbD 23) (w.getLsbD 21) (w.extractLsb' 16 4) (w.extractLsb' 12 4) (w.extractLsb' 8 4) (w.extractLsb' 0 4)⟩,
  -- `LDRSB_reg`
  ⟨0x0E5000F0, 0x001000D0, fun w => .ldrsbReg (condAt w 28) (w.getLsbD 24) (w.getLsbD 23) (w.getLsbD 21) (w.extractLsb' 16 4) (w.extractLsb' 12 4) (w.extractLsb' 8 4) (w.extractLsb' 0 4)⟩,
  -- `LDRSB_imm`
  ⟨0x0E5000F0, 0x005000D0, fun w => .ldrsbImm (condAt w 28) (w.getLsbD 24) (w.getLsbD 23) (w.getLsbD 21) (w.extractLsb' 16 4) (w.extractLsb' 12 4) (w.extractLsb' 8 4) (w.extractLsb' 0 4)⟩,
  -- `LDRSH_reg`
  ⟨0x0E5000F0, 0x001000F0, fun w => .ldrshReg (condAt w 28) (w.getLsbD 24) (w.getLsbD 23) (w.getLsbD 21) (w.extractLsb' 16 4) (w.extractLsb' 12 4) (w.extractLsb' 8 4) (w.extractLsb' 0 4)⟩,
  -- `LDRSH_imm`
  ⟨0x0E5000F0, 0x005000F0, fun w => .ldrshImm (condAt w 28) (w.getLsbD 24) (w.getLsbD 23) (w.getLsbD 21) (w.extractLsb' 16 4) (w.extractLsb' 12 4) (w.extractLsb' 8 4) (w.extractLsb' 0 4)⟩]

/-- The word and byte transfer rows and the undefined space (formats A13 to A15). -/
def armSingleRows : List (Row 32) := [
  -- `LDR_imm_pre`
  ⟨0x0F500000, 0x05100000, fun w => .ldrImmPre (condAt w 28) (w.getLsbD 23) (w.getLsbD 21) (w.extractLsb' 16 4) (w.extractLsb' 12 4) (w.extractLsb' 0 12)⟩,
  -- `LDR_imm_post`
  ⟨0x0F700000, 0x04100000, fun w => .ldrImmPost (condAt w 28) (w.getLsbD 23) (w.extractLsb' 16 4) (w.extractLsb' 12 4) (w.extractLsb' 0 12)⟩,
  -- `LDR_reg_pre`
  ⟨0x0F500010, 0x07100000, fun w => .ldrRegPre (condAt w 28) (w.getLsbD 23) (w.getLsbD 21) (w.extractLsb' 16 4) (w.extractLsb' 12 4) (w.extractLsb' 7 5) (shiftAt w 5) (w.extractLsb' 0 4)⟩,
  -- `LDR_reg_post`
  ⟨0x0F700010, 0x06100000, fun w => .ldrRegPost (condAt w 28) (w.getLsbD 23) (w.extractLsb' 16 4) (w.extractLsb' 12 4) (w.extractLsb' 7 5) (shiftAt w 5) (w.extractLsb' 0 4)⟩,
  -- `STR_imm_pre`
  ⟨0x0F500000, 0x05000000, fun w => .strImmPre (condAt w 28) (w.getLsbD 23) (w.getLsbD 21) (w.extractLsb' 16 4) (w.extractLsb' 12 4) (w.extractLsb' 0 12)⟩,
  -- `STR_imm_post`
  ⟨0x0F700000, 0x04000000, fun w => .strImmPost (condAt w 28) (w.getLsbD 23) (w.extractLsb' 16 4) (w.extractLsb' 12 4) (w.extractLsb' 0 12)⟩,
  -- `STR_reg_pre`
  ⟨0x0F500010, 0x07000000, fun w => .strRegPre (condAt w 28) (w.getLsbD 23) (w.getLsbD 21) (w.extractLsb' 16 4) (w.extractLsb' 12 4) (w.extractLsb' 7 5) (shiftAt w 5) (w.extractLsb' 0 4)⟩,
  -- `STR_reg_post`
  ⟨0x0F700010, 0x06000000, fun w => .strRegPost (condAt w 28) (w.getLsbD 23) (w.extractLsb' 16 4) (w.extractLsb' 12 4) (w.extractLsb' 7 5) (shiftAt w 5) (w.extractLsb' 0 4)⟩,
  -- `LDRB_imm_pre`
  ⟨0x0F500000, 0x05500000, fun w => .ldrbImmPre (condAt w 28) (w.getLsbD 23) (w.getLsbD 21) (w.extractLsb' 16 4) (w.extractLsb' 12 4) (w.extractLsb' 0 12)⟩,
  -- `LDRB_imm_post`
  ⟨0x0F700000, 0x04500000, fun w => .ldrbImmPost (condAt w 28) (w.getLsbD 23) (w.extractLsb' 16 4) (w.extractLsb' 12 4) (w.extractLsb' 0 12)⟩,
  -- `LDRB_reg_pre`
  ⟨0x0F500010, 0x07500000, fun w => .ldrbRegPre (condAt w 28) (w.getLsbD 23) (w.getLsbD 21) (w.extractLsb' 16 4) (w.extractLsb' 12 4) (w.extractLsb' 7 5) (shiftAt w 5) (w.extractLsb' 0 4)⟩,
  -- `LDRB_reg_post`
  ⟨0x0F700010, 0x06500000, fun w => .ldrbRegPost (condAt w 28) (w.getLsbD 23) (w.extractLsb' 16 4) (w.extractLsb' 12 4) (w.extractLsb' 7 5) (shiftAt w 5) (w.extractLsb' 0 4)⟩,
  -- `STRB_imm_pre`
  ⟨0x0F500000, 0x05400000, fun w => .strbImmPre (condAt w 28) (w.getLsbD 23) (w.getLsbD 21) (w.extractLsb' 16 4) (w.extractLsb' 12 4) (w.extractLsb' 0 12)⟩,
  -- `STRB_imm_post`
  ⟨0x0F700000, 0x04400000, fun w => .strbImmPost (condAt w 28) (w.getLsbD 23) (w.extractLsb' 16 4) (w.extractLsb' 12 4) (w.extractLsb' 0 12)⟩,
  -- `STRB_reg_pre`
  ⟨0x0F500010, 0x07400000, fun w => .strbRegPre (condAt w 28) (w.getLsbD 23) (w.getLsbD 21) (w.extractLsb' 16 4) (w.extractLsb' 12 4) (w.extractLsb' 7 5) (shiftAt w 5) (w.extractLsb' 0 4)⟩,
  -- `STRB_reg_post`
  ⟨0x0F700010, 0x06400000, fun w => .strbRegPost (condAt w 28) (w.getLsbD 23) (w.extractLsb' 16 4) (w.extractLsb' 12 4) (w.extractLsb' 7 5) (shiftAt w 5) (w.extractLsb' 0 4)⟩,
  -- `LDRT_imm`
  ⟨0x0F700000, 0x04300000, fun w => .ldrtImm (condAt w 28) (w.getLsbD 23) (w.extractLsb' 16 4) (w.extractLsb' 12 4) (w.extractLsb' 0 12)⟩,
  -- `LDRT_reg`
  ⟨0x0F700010, 0x06300000, fun w => .ldrtReg (condAt w 28) (w.getLsbD 23) (w.extractLsb' 16 4) (w.extractLsb' 12 4) (w.extractLsb' 7 5) (shiftAt w 5) (w.extractLsb' 0 4)⟩,
  -- `STRT_imm`
  ⟨0x0F700000, 0x04200000, fun w => .strtImm (condAt w 28) (w.getLsbD 23) (w.extractLsb' 16 4) (w.extractLsb' 12 4) (w.extractLsb' 0 12)⟩,
  -- `STRT_reg`
  ⟨0x0F700010, 0x06200000, fun w => .strtReg (condAt w 28) (w.getLsbD 23) (w.extractLsb' 16 4) (w.extractLsb' 12 4) (w.extractLsb' 7 5) (shiftAt w 5) (w.extractLsb' 0 4)⟩,
  -- `LDRBT_imm`
  ⟨0x0F700000, 0x04700000, fun w => .ldrbtImm (condAt w 28) (w.getLsbD 23) (w.extractLsb' 16 4) (w.extractLsb' 12 4) (w.extractLsb' 0 12)⟩,
  -- `LDRBT_reg`
  ⟨0x0F700010, 0x06700000, fun w => .ldrbtReg (condAt w 28) (w.getLsbD 23) (w.extractLsb' 16 4) (w.extractLsb' 12 4) (w.extractLsb' 7 5) (shiftAt w 5) (w.extractLsb' 0 4)⟩,
  -- `STRBT_imm`
  ⟨0x0F700000, 0x04600000, fun w => .strbtImm (condAt w 28) (w.getLsbD 23) (w.extractLsb' 16 4) (w.extractLsb' 12 4) (w.extractLsb' 0 12)⟩,
  -- `STRBT_reg`
  ⟨0x0F700010, 0x06600000, fun w => .strbtReg (condAt w 28) (w.getLsbD 23) (w.extractLsb' 16 4) (w.extractLsb' 12 4) (w.extractLsb' 7 5) (shiftAt w 5) (w.extractLsb' 0 4)⟩,
  -- `UND`
  ⟨0x0E000010, 0x06000010, fun w => .und (condAt w 28) (w.extractLsb' 5 20) (w.extractLsb' 0 4)⟩]

/-- The block-transfer, branch, coprocessor and SWI rows (formats A16 to A21). -/
def armSystemRows : List (Row 32) := [
  -- `LDM`
  ⟨0x0E500000, 0x08100000, fun w => .ldm (condAt w 28) (w.getLsbD 24) (w.getLsbD 23) (w.getLsbD 21) (w.extractLsb' 16 4) (w.extractLsb' 0 16)⟩,
  -- `STM`
  ⟨0x0E500000, 0x08000000, fun w => .stm (condAt w 28) (w.getLsbD 24) (w.getLsbD 23) (w.getLsbD 21) (w.extractLsb' 16 4) (w.extractLsb' 0 16)⟩,
  -- `LDM_usr`
  ⟨0x0E508000, 0x08500000, fun w => .ldmUsr (condAt w 28) (w.getLsbD 24) (w.getLsbD 23) (w.getLsbD 21) (w.extractLsb' 16 4) (w.extractLsb' 0 15)⟩,
  -- `LDM_ret`
  ⟨0x0E508000, 0x08508000, fun w => .ldmRet (condAt w 28) (w.getLsbD 24) (w.getLsbD 23) (w.getLsbD 21) (w.extractLsb' 16 4) (w.extractLsb' 0 15)⟩,
  -- `STM_usr`
  ⟨0x0E500000, 0x08400000, fun w => .stmUsr (condAt w 28) (w.getLsbD 24) (w.getLsbD 23) (w.getLsbD 21) (w.extractLsb' 16 4) (w.extractLsb' 0 16)⟩,
  -- `B`
  ⟨0x0F000000, 0x0A000000, fun w => .b (condAt w 28) (w.extractLsb' 0 24)⟩,
  -- `BL`
  ⟨0x0F000000, 0x0B000000, fun w => .bl (condAt w 28) (w.extractLsb' 0 24)⟩,
  -- `LDC`
  ⟨0x0E100000, 0x0C100000, fun w => .ldc (condAt w 28) (w.getLsbD 24) (w.getLsbD 23) (w.getLsbD 22) (w.getLsbD 21) (w.extractLsb' 16 4) (w.extractLsb' 12 4) (w.extractLsb' 8 4) (w.extractLsb' 0 8)⟩,
  -- `STC`
  ⟨0x0E100000, 0x0C000000, fun w => .stc (condAt w 28) (w.getLsbD 24) (w.getLsbD 23) (w.getLsbD 22) (w.getLsbD 21) (w.extractLsb' 16 4) (w.extractLsb' 12 4) (w.extractLsb' 8 4) (w.extractLsb' 0 8)⟩,
  -- `CDP`
  ⟨0x0F000010, 0x0E000000, fun w => .cdp (condAt w 28) (w.extractLsb' 20 4) (w.extractLsb' 16 4) (w.extractLsb' 12 4) (w.extractLsb' 8 4) (w.extractLsb' 5 3) (w.extractLsb' 0 4)⟩,
  -- `MCR`
  ⟨0x0F100010, 0x0E000010, fun w => .mcr (condAt w 28) (w.extractLsb' 21 3) (w.extractLsb' 16 4) (w.extractLsb' 12 4) (w.extractLsb' 8 4) (w.extractLsb' 5 3) (w.extractLsb' 0 4)⟩,
  -- `MRC`
  ⟨0x0F100010, 0x0E100010, fun w => .mrc (condAt w 28) (w.extractLsb' 21 3) (w.extractLsb' 16 4) (w.extractLsb' 12 4) (w.extractLsb' 8 4) (w.extractLsb' 5 3) (w.extractLsb' 0 4)⟩,
  -- `SWI`
  ⟨0x0F000000, 0x0F000000, fun w => .swi (condAt w 28) (w.extractLsb' 0 24)⟩]

/-- The Thumb rows of formats T1 to T5. -/
def thumbAluRows : List (Row 16) := [
  -- `T_LSL_imm`
  ⟨0xF800, 0x0000, fun w => .tLslImm (w.extractLsb' 6 5) (w.extractLsb' 3 3) (w.extractLsb' 0 3)⟩,
  -- `T_LSR_imm`
  ⟨0xF800, 0x0800, fun w => .tLsrImm (w.extractLsb' 6 5) (w.extractLsb' 3 3) (w.extractLsb' 0 3)⟩,
  -- `T_ASR_imm`
  ⟨0xF800, 0x1000, fun w => .tAsrImm (w.extractLsb' 6 5) (w.extractLsb' 3 3) (w.extractLsb' 0 3)⟩,
  -- `T_ADD_reg`
  ⟨0xFE00, 0x1800, fun w => .tAddReg (w.extractLsb' 6 3) (w.extractLsb' 3 3) (w.extractLsb' 0 3)⟩,
  -- `T_SUB_reg`
  ⟨0xFE00, 0x1A00, fun w => .tSubReg (w.extractLsb' 6 3) (w.extractLsb' 3 3) (w.extractLsb' 0 3)⟩,
  -- `T_ADD_imm3`
  ⟨0xFE00, 0x1C00, fun w => .tAddImm3 (w.extractLsb' 6 3) (w.extractLsb' 3 3) (w.extractLsb' 0 3)⟩,
  -- `T_SUB_imm3`
  ⟨0xFE00, 0x1E00, fun w => .tSubImm3 (w.extractLsb' 6 3) (w.extractLsb' 3 3) (w.extractLsb' 0 3)⟩,
  -- `T_MOV_imm`
  ⟨0xF800, 0x2000, fun w => .tMovImm (w.extractLsb' 8 3) (w.extractLsb' 0 8)⟩,
  -- `T_CMP_imm`
  ⟨0xF800, 0x2800, fun w => .tCmpImm (w.extractLsb' 8 3) (w.extractLsb' 0 8)⟩,
  -- `T_ADD_imm8`
  ⟨0xF800, 0x3000, fun w => .tAddImm8 (w.extractLsb' 8 3) (w.extractLsb' 0 8)⟩,
  -- `T_SUB_imm8`
  ⟨0xF800, 0x3800, fun w => .tSubImm8 (w.extractLsb' 8 3) (w.extractLsb' 0 8)⟩,
  -- `T_AND`
  ⟨0xFFC0, 0x4000, fun w => .tAnd (w.extractLsb' 3 3) (w.extractLsb' 0 3)⟩,
  -- `T_EOR`
  ⟨0xFFC0, 0x4040, fun w => .tEor (w.extractLsb' 3 3) (w.extractLsb' 0 3)⟩,
  -- `T_LSL_reg`
  ⟨0xFFC0, 0x4080, fun w => .tLslReg (w.extractLsb' 3 3) (w.extractLsb' 0 3)⟩,
  -- `T_LSR_reg`
  ⟨0xFFC0, 0x40C0, fun w => .tLsrReg (w.extractLsb' 3 3) (w.extractLsb' 0 3)⟩,
  -- `T_ASR_reg`
  ⟨0xFFC0, 0x4100, fun w => .tAsrReg (w.extractLsb' 3 3) (w.extractLsb' 0 3)⟩,
  -- `T_ADC`
  ⟨0xFFC0, 0x4140, fun w => .tAdc (w.extractLsb' 3 3) (w.extractLsb' 0 3)⟩,
  -- `T_SBC`
  ⟨0xFFC0, 0x4180, fun w => .tSbc (w.extractLsb' 3 3) (w.extractLsb' 0 3)⟩,
  -- `T_ROR`
  ⟨0xFFC0, 0x41C0, fun w => .tRor (w.extractLsb' 3 3) (w.extractLsb' 0 3)⟩,
  -- `T_TST`
  ⟨0xFFC0, 0x4200, fun w => .tTst (w.extractLsb' 3 3) (w.extractLsb' 0 3)⟩,
  -- `T_NEG`
  ⟨0xFFC0, 0x4240, fun w => .tNeg (w.extractLsb' 3 3) (w.extractLsb' 0 3)⟩,
  -- `T_CMP_reg`
  ⟨0xFFC0, 0x4280, fun w => .tCmpReg (w.extractLsb' 3 3) (w.extractLsb' 0 3)⟩,
  -- `T_CMN`
  ⟨0xFFC0, 0x42C0, fun w => .tCmn (w.extractLsb' 3 3) (w.extractLsb' 0 3)⟩,
  -- `T_ORR`
  ⟨0xFFC0, 0x4300, fun w => .tOrr (w.extractLsb' 3 3) (w.extractLsb' 0 3)⟩,
  -- `T_MUL`
  ⟨0xFFC0, 0x4340, fun w => .tMul (w.extractLsb' 3 3) (w.extractLsb' 0 3)⟩,
  -- `T_BIC`
  ⟨0xFFC0, 0x4380, fun w => .tBic (w.extractLsb' 3 3) (w.extractLsb' 0 3)⟩,
  -- `T_MVN`
  ⟨0xFFC0, 0x43C0, fun w => .tMvn (w.extractLsb' 3 3) (w.extractLsb' 0 3)⟩,
  -- `T_ADD_hi`
  ⟨0xFF00, 0x4400, fun w => .tAddHi (w.getLsbD 7) (w.getLsbD 6) (w.extractLsb' 3 3) (w.extractLsb' 0 3)⟩,
  -- `T_CMP_hi`
  ⟨0xFF00, 0x4500, fun w => .tCmpHi (w.getLsbD 7) (w.getLsbD 6) (w.extractLsb' 3 3) (w.extractLsb' 0 3)⟩,
  -- `T_MOV_hi`
  ⟨0xFF00, 0x4600, fun w => .tMovHi (w.getLsbD 7) (w.getLsbD 6) (w.extractLsb' 3 3) (w.extractLsb' 0 3)⟩,
  -- `T_BX`
  ⟨0xFF00, 0x4700, fun w => .tBx (w.extractLsb' 7 1) (w.getLsbD 6) (w.extractLsb' 3 3) (w.extractLsb' 0 3)⟩]

/-- The Thumb rows of formats T6 to T15. -/
def thumbMemRows : List (Row 16) := [
  -- `T_LDR_pc`
  ⟨0xF800, 0x4800, fun w => .tLdrPc (w.extractLsb' 8 3) (w.extractLsb' 0 8)⟩,
  -- `T_STR_reg`
  ⟨0xFE00, 0x5000, fun w => .tStrReg (w.extractLsb' 6 3) (w.extractLsb' 3 3) (w.extractLsb' 0 3)⟩,
  -- `T_STRB_reg`
  ⟨0xFE00, 0x5400, fun w => .tStrbReg (w.extractLsb' 6 3) (w.extractLsb' 3 3) (w.extractLsb' 0 3)⟩,
  -- `T_LDR_reg`
  ⟨0xFE00, 0x5800, fun w => .tLdrReg (w.extractLsb' 6 3) (w.extractLsb' 3 3) (w.extractLsb' 0 3)⟩,
  -- `T_LDRB_reg`
  ⟨0xFE00, 0x5C00, fun w => .tLdrbReg (w.extractLsb' 6 3) (w.extractLsb' 3 3) (w.extractLsb' 0 3)⟩,
  -- `T_STRH_reg`
  ⟨0xFE00, 0x5200, fun w => .tStrhReg (w.extractLsb' 6 3) (w.extractLsb' 3 3) (w.extractLsb' 0 3)⟩,
  -- `T_LDSB`
  ⟨0xFE00, 0x5600, fun w => .tLdsb (w.extractLsb' 6 3) (w.extractLsb' 3 3) (w.extractLsb' 0 3)⟩,
  -- `T_LDRH_reg`
  ⟨0xFE00, 0x5A00, fun w => .tLdrhReg (w.extractLsb' 6 3) (w.extractLsb' 3 3) (w.extractLsb' 0 3)⟩,
  -- `T_LDSH`
  ⟨0xFE00, 0x5E00, fun w => .tLdsh (w.extractLsb' 6 3) (w.extractLsb' 3 3) (w.extractLsb' 0 3)⟩,
  -- `T_STR_imm`
  ⟨0xF800, 0x6000, fun w => .tStrImm (w.extractLsb' 6 5) (w.extractLsb' 3 3) (w.extractLsb' 0 3)⟩,
  -- `T_LDR_imm`
  ⟨0xF800, 0x6800, fun w => .tLdrImm (w.extractLsb' 6 5) (w.extractLsb' 3 3) (w.extractLsb' 0 3)⟩,
  -- `T_STRB_imm`
  ⟨0xF800, 0x7000, fun w => .tStrbImm (w.extractLsb' 6 5) (w.extractLsb' 3 3) (w.extractLsb' 0 3)⟩,
  -- `T_LDRB_imm`
  ⟨0xF800, 0x7800, fun w => .tLdrbImm (w.extractLsb' 6 5) (w.extractLsb' 3 3) (w.extractLsb' 0 3)⟩,
  -- `T_STRH_imm`
  ⟨0xF800, 0x8000, fun w => .tStrhImm (w.extractLsb' 6 5) (w.extractLsb' 3 3) (w.extractLsb' 0 3)⟩,
  -- `T_LDRH_imm`
  ⟨0xF800, 0x8800, fun w => .tLdrhImm (w.extractLsb' 6 5) (w.extractLsb' 3 3) (w.extractLsb' 0 3)⟩,
  -- `T_STR_sp`
  ⟨0xF800, 0x9000, fun w => .tStrSp (w.extractLsb' 8 3) (w.extractLsb' 0 8)⟩,
  -- `T_LDR_sp`
  ⟨0xF800, 0x9800, fun w => .tLdrSp (w.extractLsb' 8 3) (w.extractLsb' 0 8)⟩,
  -- `T_ADD_pc`
  ⟨0xF800, 0xA000, fun w => .tAddPc (w.extractLsb' 8 3) (w.extractLsb' 0 8)⟩,
  -- `T_ADD_sp`
  ⟨0xF800, 0xA800, fun w => .tAddSp (w.extractLsb' 8 3) (w.extractLsb' 0 8)⟩,
  -- `T_ADD_sp_imm`
  ⟨0xFF00, 0xB000, fun w => .tAddSpImm (w.getLsbD 7) (w.extractLsb' 0 7)⟩,
  -- `T_PUSH`
  ⟨0xFE00, 0xB400, fun w => .tPush (w.getLsbD 8) (w.extractLsb' 0 8)⟩,
  -- `T_POP`
  ⟨0xFE00, 0xBC00, fun w => .tPop (w.getLsbD 8) (w.extractLsb' 0 8)⟩,
  -- `T_STMIA`
  ⟨0xF800, 0xC000, fun w => .tStmia (w.extractLsb' 8 3) (w.extractLsb' 0 8)⟩,
  -- `T_LDMIA`
  ⟨0xF800, 0xC800, fun w => .tLdmia (w.extractLsb' 8 3) (w.extractLsb' 0 8)⟩]

/-- The Thumb rows of formats T16 to T19. -/
def thumbBranchRows : List (Row 16) := [
  -- `T_B_cond`
  ⟨0xF800, 0xD000, fun w => .tBCond (condAt w 8) (w.extractLsb' 0 8)⟩,
  -- `T_B_cond`
  ⟨0xFC00, 0xD800, fun w => .tBCond (condAt w 8) (w.extractLsb' 0 8)⟩,
  -- `T_B_cond`
  ⟨0xFE00, 0xDC00, fun w => .tBCond (condAt w 8) (w.extractLsb' 0 8)⟩,
  -- `T_SWI`
  ⟨0xFF00, 0xDF00, fun w => .tSwi (w.extractLsb' 0 8)⟩,
  -- `T_B`
  ⟨0xF800, 0xE000, fun w => .tB (w.extractLsb' 0 11)⟩,
  -- `T_BL_hi`
  ⟨0xF800, 0xF000, fun w => .tBlHi (w.extractLsb' 0 11)⟩,
  -- `T_BL_lo`
  ⟨0xF800, 0xF800, fun w => .tBlLo (w.extractLsb' 0 11)⟩]

/-- Every ARM row (R150). -/
def armRows : List (Row 32) := armDataRows ++ armMiscRows ++ armHalfRows ++ armSingleRows ++ armSystemRows

/-- Every Thumb row (R150). -/
def thumbRows : List (Row 16) := thumbAluRows ++ thumbMemRows ++ thumbBranchRows

/-- A word matches a row (R150). -/
def Row.matches {n : Nat} (r : Row n) (w : BitVec n) : Bool := w &&& r.mask == r.pattern

/-- The row a word matches, if any: the rows are disjoint, so the first is the only one (R150). -/
def lookupRow {n : Nat} (rows : List (Row n)) (w : BitVec n) : Option Instr :=
  match rows.find? (fun r => r.matches w) with
  | some r => some (r.build w)
  | none => none

/-- Decode an ARM word (R150, R151). -/
def decodeArm (w : BitVec 32) : Except DecodeError Instr :=
  match lookupRow armRows w with
  | some i => .ok i
  | none => .error (.unallocatedArm w)

/-- Decode a Thumb halfword (R150, R152). -/
def decodeThumb (h : BitVec 16) : Except DecodeError Instr :=
  match lookupRow thumbRows h with
  | some i => .ok i
  | none => .error (.unallocatedThumb h)

/-- Decode the instruction at the front of a byte list, little-endian (R82, R130); the state of `CPSR.T` alone tells
its length. -/
def decodeBytes (thumb : Bool) (bytes : List Byte) : Except DecodeError (Instr × List Byte) :=
  match thumb, bytes with
  | true, b0 :: b1 :: rest => (decodeThumb (b1 ++ b0)).map (fun i => (i, rest))
  | false, b0 :: b1 :: b2 :: b3 :: rest => (decodeArm (b3 ++ b2 ++ b1 ++ b0)).map (fun i => (i, rest))
  | _, _ => .error .truncated

/-- The words of an instruction: one ARM word or one Thumb halfword (R130). -/
inductive Code where
  | arm (w : BitVec 32)
  | thumb (h : BitVec 16)
  deriving DecidableEq, Repr

/-- Decode a word of either instruction set. -/
def decode : Code → Except DecodeError Instr
  | .arm w => decodeArm w
  | .thumb h => decodeThumb h

/-- The bytes of a word in memory order (R82). -/
def Code.bytes : Code → List Byte
  | .arm w => [w.extractLsb' 0 8, w.extractLsb' 8 8, w.extractLsb' 16 8, w.extractLsb' 24 8]
  | .thumb h => [h.extractLsb' 0 8, h.extractLsb' 8 8]

/-- Encode an instruction, field by field in the formats of R132-R149 and R160. -/
def encode : Instr → Code
  | .andImm c s rn rd rot imm8 => .arm (c.bits ++ 0b0010000#7 ++ BitVec.ofBool s ++ rn ++ rd ++ rot ++ imm8)
  | .andRsi c s rn rd amt sh rm => .arm (c.bits ++ 0b0000000#7 ++ BitVec.ofBool s ++ rn ++ rd ++ amt ++ sh.bits ++ 0b0#1 ++ rm)
  | .andRsr c s rn rd rs sh rm => .arm (c.bits ++ 0b0000000#7 ++ BitVec.ofBool s ++ rn ++ rd ++ rs ++ 0b0#1 ++ sh.bits ++ 0b1#1 ++ rm)
  | .eorImm c s rn rd rot imm8 => .arm (c.bits ++ 0b0010001#7 ++ BitVec.ofBool s ++ rn ++ rd ++ rot ++ imm8)
  | .eorRsi c s rn rd amt sh rm => .arm (c.bits ++ 0b0000001#7 ++ BitVec.ofBool s ++ rn ++ rd ++ amt ++ sh.bits ++ 0b0#1 ++ rm)
  | .eorRsr c s rn rd rs sh rm => .arm (c.bits ++ 0b0000001#7 ++ BitVec.ofBool s ++ rn ++ rd ++ rs ++ 0b0#1 ++ sh.bits ++ 0b1#1 ++ rm)
  | .subImm c s rn rd rot imm8 => .arm (c.bits ++ 0b0010010#7 ++ BitVec.ofBool s ++ rn ++ rd ++ rot ++ imm8)
  | .subRsi c s rn rd amt sh rm => .arm (c.bits ++ 0b0000010#7 ++ BitVec.ofBool s ++ rn ++ rd ++ amt ++ sh.bits ++ 0b0#1 ++ rm)
  | .subRsr c s rn rd rs sh rm => .arm (c.bits ++ 0b0000010#7 ++ BitVec.ofBool s ++ rn ++ rd ++ rs ++ 0b0#1 ++ sh.bits ++ 0b1#1 ++ rm)
  | .rsbImm c s rn rd rot imm8 => .arm (c.bits ++ 0b0010011#7 ++ BitVec.ofBool s ++ rn ++ rd ++ rot ++ imm8)
  | .rsbRsi c s rn rd amt sh rm => .arm (c.bits ++ 0b0000011#7 ++ BitVec.ofBool s ++ rn ++ rd ++ amt ++ sh.bits ++ 0b0#1 ++ rm)
  | .rsbRsr c s rn rd rs sh rm => .arm (c.bits ++ 0b0000011#7 ++ BitVec.ofBool s ++ rn ++ rd ++ rs ++ 0b0#1 ++ sh.bits ++ 0b1#1 ++ rm)
  | .addImm c s rn rd rot imm8 => .arm (c.bits ++ 0b0010100#7 ++ BitVec.ofBool s ++ rn ++ rd ++ rot ++ imm8)
  | .addRsi c s rn rd amt sh rm => .arm (c.bits ++ 0b0000100#7 ++ BitVec.ofBool s ++ rn ++ rd ++ amt ++ sh.bits ++ 0b0#1 ++ rm)
  | .addRsr c s rn rd rs sh rm => .arm (c.bits ++ 0b0000100#7 ++ BitVec.ofBool s ++ rn ++ rd ++ rs ++ 0b0#1 ++ sh.bits ++ 0b1#1 ++ rm)
  | .adcImm c s rn rd rot imm8 => .arm (c.bits ++ 0b0010101#7 ++ BitVec.ofBool s ++ rn ++ rd ++ rot ++ imm8)
  | .adcRsi c s rn rd amt sh rm => .arm (c.bits ++ 0b0000101#7 ++ BitVec.ofBool s ++ rn ++ rd ++ amt ++ sh.bits ++ 0b0#1 ++ rm)
  | .adcRsr c s rn rd rs sh rm => .arm (c.bits ++ 0b0000101#7 ++ BitVec.ofBool s ++ rn ++ rd ++ rs ++ 0b0#1 ++ sh.bits ++ 0b1#1 ++ rm)
  | .sbcImm c s rn rd rot imm8 => .arm (c.bits ++ 0b0010110#7 ++ BitVec.ofBool s ++ rn ++ rd ++ rot ++ imm8)
  | .sbcRsi c s rn rd amt sh rm => .arm (c.bits ++ 0b0000110#7 ++ BitVec.ofBool s ++ rn ++ rd ++ amt ++ sh.bits ++ 0b0#1 ++ rm)
  | .sbcRsr c s rn rd rs sh rm => .arm (c.bits ++ 0b0000110#7 ++ BitVec.ofBool s ++ rn ++ rd ++ rs ++ 0b0#1 ++ sh.bits ++ 0b1#1 ++ rm)
  | .rscImm c s rn rd rot imm8 => .arm (c.bits ++ 0b0010111#7 ++ BitVec.ofBool s ++ rn ++ rd ++ rot ++ imm8)
  | .rscRsi c s rn rd amt sh rm => .arm (c.bits ++ 0b0000111#7 ++ BitVec.ofBool s ++ rn ++ rd ++ amt ++ sh.bits ++ 0b0#1 ++ rm)
  | .rscRsr c s rn rd rs sh rm => .arm (c.bits ++ 0b0000111#7 ++ BitVec.ofBool s ++ rn ++ rd ++ rs ++ 0b0#1 ++ sh.bits ++ 0b1#1 ++ rm)
  | .tstImm c rn sbz rot imm8 => .arm (c.bits ++ 0b00110001#8 ++ rn ++ sbz ++ rot ++ imm8)
  | .tstRsi c rn sbz amt sh rm => .arm (c.bits ++ 0b00010001#8 ++ rn ++ sbz ++ amt ++ sh.bits ++ 0b0#1 ++ rm)
  | .tstRsr c rn sbz rs sh rm => .arm (c.bits ++ 0b00010001#8 ++ rn ++ sbz ++ rs ++ 0b0#1 ++ sh.bits ++ 0b1#1 ++ rm)
  | .teqImm c rn sbz rot imm8 => .arm (c.bits ++ 0b00110011#8 ++ rn ++ sbz ++ rot ++ imm8)
  | .teqRsi c rn sbz amt sh rm => .arm (c.bits ++ 0b00010011#8 ++ rn ++ sbz ++ amt ++ sh.bits ++ 0b0#1 ++ rm)
  | .teqRsr c rn sbz rs sh rm => .arm (c.bits ++ 0b00010011#8 ++ rn ++ sbz ++ rs ++ 0b0#1 ++ sh.bits ++ 0b1#1 ++ rm)
  | .cmpImm c rn sbz rot imm8 => .arm (c.bits ++ 0b00110101#8 ++ rn ++ sbz ++ rot ++ imm8)
  | .cmpRsi c rn sbz amt sh rm => .arm (c.bits ++ 0b00010101#8 ++ rn ++ sbz ++ amt ++ sh.bits ++ 0b0#1 ++ rm)
  | .cmpRsr c rn sbz rs sh rm => .arm (c.bits ++ 0b00010101#8 ++ rn ++ sbz ++ rs ++ 0b0#1 ++ sh.bits ++ 0b1#1 ++ rm)
  | .cmnImm c rn sbz rot imm8 => .arm (c.bits ++ 0b00110111#8 ++ rn ++ sbz ++ rot ++ imm8)
  | .cmnRsi c rn sbz amt sh rm => .arm (c.bits ++ 0b00010111#8 ++ rn ++ sbz ++ amt ++ sh.bits ++ 0b0#1 ++ rm)
  | .cmnRsr c rn sbz rs sh rm => .arm (c.bits ++ 0b00010111#8 ++ rn ++ sbz ++ rs ++ 0b0#1 ++ sh.bits ++ 0b1#1 ++ rm)
  | .orrImm c s rn rd rot imm8 => .arm (c.bits ++ 0b0011100#7 ++ BitVec.ofBool s ++ rn ++ rd ++ rot ++ imm8)
  | .orrRsi c s rn rd amt sh rm => .arm (c.bits ++ 0b0001100#7 ++ BitVec.ofBool s ++ rn ++ rd ++ amt ++ sh.bits ++ 0b0#1 ++ rm)
  | .orrRsr c s rn rd rs sh rm => .arm (c.bits ++ 0b0001100#7 ++ BitVec.ofBool s ++ rn ++ rd ++ rs ++ 0b0#1 ++ sh.bits ++ 0b1#1 ++ rm)
  | .movImm c s sbz rd rot imm8 => .arm (c.bits ++ 0b0011101#7 ++ BitVec.ofBool s ++ sbz ++ rd ++ rot ++ imm8)
  | .movRsi c s sbz rd amt sh rm => .arm (c.bits ++ 0b0001101#7 ++ BitVec.ofBool s ++ sbz ++ rd ++ amt ++ sh.bits ++ 0b0#1 ++ rm)
  | .movRsr c s sbz rd rs sh rm => .arm (c.bits ++ 0b0001101#7 ++ BitVec.ofBool s ++ sbz ++ rd ++ rs ++ 0b0#1 ++ sh.bits ++ 0b1#1 ++ rm)
  | .bicImm c s rn rd rot imm8 => .arm (c.bits ++ 0b0011110#7 ++ BitVec.ofBool s ++ rn ++ rd ++ rot ++ imm8)
  | .bicRsi c s rn rd amt sh rm => .arm (c.bits ++ 0b0001110#7 ++ BitVec.ofBool s ++ rn ++ rd ++ amt ++ sh.bits ++ 0b0#1 ++ rm)
  | .bicRsr c s rn rd rs sh rm => .arm (c.bits ++ 0b0001110#7 ++ BitVec.ofBool s ++ rn ++ rd ++ rs ++ 0b0#1 ++ sh.bits ++ 0b1#1 ++ rm)
  | .mvnImm c s sbz rd rot imm8 => .arm (c.bits ++ 0b0011111#7 ++ BitVec.ofBool s ++ sbz ++ rd ++ rot ++ imm8)
  | .mvnRsi c s sbz rd amt sh rm => .arm (c.bits ++ 0b0001111#7 ++ BitVec.ofBool s ++ sbz ++ rd ++ amt ++ sh.bits ++ 0b0#1 ++ rm)
  | .mvnRsr c s sbz rd rs sh rm => .arm (c.bits ++ 0b0001111#7 ++ BitVec.ofBool s ++ sbz ++ rd ++ rs ++ 0b0#1 ++ sh.bits ++ 0b1#1 ++ rm)
  | .mul c s rd sbz rs rm => .arm (c.bits ++ 0b0000000#7 ++ BitVec.ofBool s ++ rd ++ sbz ++ rs ++ 0b1001#4 ++ rm)
  | .mla c s rd rn rs rm => .arm (c.bits ++ 0b0000001#7 ++ BitVec.ofBool s ++ rd ++ rn ++ rs ++ 0b1001#4 ++ rm)
  | .umull c s rdHi rdLo rs rm => .arm (c.bits ++ 0b0000100#7 ++ BitVec.ofBool s ++ rdHi ++ rdLo ++ rs ++ 0b1001#4 ++ rm)
  | .umlal c s rdHi rdLo rs rm => .arm (c.bits ++ 0b0000101#7 ++ BitVec.ofBool s ++ rdHi ++ rdLo ++ rs ++ 0b1001#4 ++ rm)
  | .smull c s rdHi rdLo rs rm => .arm (c.bits ++ 0b0000110#7 ++ BitVec.ofBool s ++ rdHi ++ rdLo ++ rs ++ 0b1001#4 ++ rm)
  | .smlal c s rdHi rdLo rs rm => .arm (c.bits ++ 0b0000111#7 ++ BitVec.ofBool s ++ rdHi ++ rdLo ++ rs ++ 0b1001#4 ++ rm)
  | .mrs c r sbo rd sbzA sbzB sbzC => .arm (c.bits ++ 0b00010#5 ++ BitVec.ofBool r ++ 0b00#2 ++ sbo ++ rd ++ sbzA ++ 0b0#1 ++ sbzB ++ 0b0#1 ++ sbzC)
  | .msrReg c r mask sbo sbzA sbzB rm => .arm (c.bits ++ 0b00010#5 ++ BitVec.ofBool r ++ 0b10#2 ++ mask ++ sbo ++ sbzA ++ 0b0#1 ++ sbzB ++ 0b0#1 ++ rm)
  | .msrImm c r mask sbo rot imm8 => .arm (c.bits ++ 0b00110#5 ++ BitVec.ofBool r ++ 0b10#2 ++ mask ++ sbo ++ rot ++ imm8)
  | .swp c rn rd sbz rm => .arm (c.bits ++ 0b00010000#8 ++ rn ++ rd ++ sbz ++ 0b1001#4 ++ rm)
  | .swpb c rn rd sbz rm => .arm (c.bits ++ 0b00010100#8 ++ rn ++ rd ++ sbz ++ 0b1001#4 ++ rm)
  | .bx c sbo rm => .arm (c.bits ++ 0b00010010#8 ++ sbo ++ 0b0001#4 ++ rm)
  | .strhReg c p u w rn rd sbz rm => .arm (c.bits ++ 0b000#3 ++ BitVec.ofBool p ++ BitVec.ofBool u ++ 0b0#1 ++ BitVec.ofBool w ++ 0b0#1 ++ rn ++ rd ++ sbz ++ 0b1011#4 ++ rm)
  | .strhImm c p u w rn rd immH immL => .arm (c.bits ++ 0b000#3 ++ BitVec.ofBool p ++ BitVec.ofBool u ++ 0b1#1 ++ BitVec.ofBool w ++ 0b0#1 ++ rn ++ rd ++ immH ++ 0b1011#4 ++ immL)
  | .ldrhReg c p u w rn rd sbz rm => .arm (c.bits ++ 0b000#3 ++ BitVec.ofBool p ++ BitVec.ofBool u ++ 0b0#1 ++ BitVec.ofBool w ++ 0b1#1 ++ rn ++ rd ++ sbz ++ 0b1011#4 ++ rm)
  | .ldrhImm c p u w rn rd immH immL => .arm (c.bits ++ 0b000#3 ++ BitVec.ofBool p ++ BitVec.ofBool u ++ 0b1#1 ++ BitVec.ofBool w ++ 0b1#1 ++ rn ++ rd ++ immH ++ 0b1011#4 ++ immL)
  | .ldrsbReg c p u w rn rd sbz rm => .arm (c.bits ++ 0b000#3 ++ BitVec.ofBool p ++ BitVec.ofBool u ++ 0b0#1 ++ BitVec.ofBool w ++ 0b1#1 ++ rn ++ rd ++ sbz ++ 0b1101#4 ++ rm)
  | .ldrsbImm c p u w rn rd immH immL => .arm (c.bits ++ 0b000#3 ++ BitVec.ofBool p ++ BitVec.ofBool u ++ 0b1#1 ++ BitVec.ofBool w ++ 0b1#1 ++ rn ++ rd ++ immH ++ 0b1101#4 ++ immL)
  | .ldrshReg c p u w rn rd sbz rm => .arm (c.bits ++ 0b000#3 ++ BitVec.ofBool p ++ BitVec.ofBool u ++ 0b0#1 ++ BitVec.ofBool w ++ 0b1#1 ++ rn ++ rd ++ sbz ++ 0b1111#4 ++ rm)
  | .ldrshImm c p u w rn rd immH immL => .arm (c.bits ++ 0b000#3 ++ BitVec.ofBool p ++ BitVec.ofBool u ++ 0b1#1 ++ BitVec.ofBool w ++ 0b1#1 ++ rn ++ rd ++ immH ++ 0b1111#4 ++ immL)
  | .ldrImmPre c u w rn rd imm12 => .arm (c.bits ++ 0b0101#4 ++ BitVec.ofBool u ++ 0b0#1 ++ BitVec.ofBool w ++ 0b1#1 ++ rn ++ rd ++ imm12)
  | .ldrImmPost c u rn rd imm12 => .arm (c.bits ++ 0b0100#4 ++ BitVec.ofBool u ++ 0b001#3 ++ rn ++ rd ++ imm12)
  | .ldrRegPre c u w rn rd amt sh rm => .arm (c.bits ++ 0b0111#4 ++ BitVec.ofBool u ++ 0b0#1 ++ BitVec.ofBool w ++ 0b1#1 ++ rn ++ rd ++ amt ++ sh.bits ++ 0b0#1 ++ rm)
  | .ldrRegPost c u rn rd amt sh rm => .arm (c.bits ++ 0b0110#4 ++ BitVec.ofBool u ++ 0b001#3 ++ rn ++ rd ++ amt ++ sh.bits ++ 0b0#1 ++ rm)
  | .strImmPre c u w rn rd imm12 => .arm (c.bits ++ 0b0101#4 ++ BitVec.ofBool u ++ 0b0#1 ++ BitVec.ofBool w ++ 0b0#1 ++ rn ++ rd ++ imm12)
  | .strImmPost c u rn rd imm12 => .arm (c.bits ++ 0b0100#4 ++ BitVec.ofBool u ++ 0b000#3 ++ rn ++ rd ++ imm12)
  | .strRegPre c u w rn rd amt sh rm => .arm (c.bits ++ 0b0111#4 ++ BitVec.ofBool u ++ 0b0#1 ++ BitVec.ofBool w ++ 0b0#1 ++ rn ++ rd ++ amt ++ sh.bits ++ 0b0#1 ++ rm)
  | .strRegPost c u rn rd amt sh rm => .arm (c.bits ++ 0b0110#4 ++ BitVec.ofBool u ++ 0b000#3 ++ rn ++ rd ++ amt ++ sh.bits ++ 0b0#1 ++ rm)
  | .ldrbImmPre c u w rn rd imm12 => .arm (c.bits ++ 0b0101#4 ++ BitVec.ofBool u ++ 0b1#1 ++ BitVec.ofBool w ++ 0b1#1 ++ rn ++ rd ++ imm12)
  | .ldrbImmPost c u rn rd imm12 => .arm (c.bits ++ 0b0100#4 ++ BitVec.ofBool u ++ 0b101#3 ++ rn ++ rd ++ imm12)
  | .ldrbRegPre c u w rn rd amt sh rm => .arm (c.bits ++ 0b0111#4 ++ BitVec.ofBool u ++ 0b1#1 ++ BitVec.ofBool w ++ 0b1#1 ++ rn ++ rd ++ amt ++ sh.bits ++ 0b0#1 ++ rm)
  | .ldrbRegPost c u rn rd amt sh rm => .arm (c.bits ++ 0b0110#4 ++ BitVec.ofBool u ++ 0b101#3 ++ rn ++ rd ++ amt ++ sh.bits ++ 0b0#1 ++ rm)
  | .strbImmPre c u w rn rd imm12 => .arm (c.bits ++ 0b0101#4 ++ BitVec.ofBool u ++ 0b1#1 ++ BitVec.ofBool w ++ 0b0#1 ++ rn ++ rd ++ imm12)
  | .strbImmPost c u rn rd imm12 => .arm (c.bits ++ 0b0100#4 ++ BitVec.ofBool u ++ 0b100#3 ++ rn ++ rd ++ imm12)
  | .strbRegPre c u w rn rd amt sh rm => .arm (c.bits ++ 0b0111#4 ++ BitVec.ofBool u ++ 0b1#1 ++ BitVec.ofBool w ++ 0b0#1 ++ rn ++ rd ++ amt ++ sh.bits ++ 0b0#1 ++ rm)
  | .strbRegPost c u rn rd amt sh rm => .arm (c.bits ++ 0b0110#4 ++ BitVec.ofBool u ++ 0b100#3 ++ rn ++ rd ++ amt ++ sh.bits ++ 0b0#1 ++ rm)
  | .ldrtImm c u rn rd imm12 => .arm (c.bits ++ 0b0100#4 ++ BitVec.ofBool u ++ 0b011#3 ++ rn ++ rd ++ imm12)
  | .ldrtReg c u rn rd amt sh rm => .arm (c.bits ++ 0b0110#4 ++ BitVec.ofBool u ++ 0b011#3 ++ rn ++ rd ++ amt ++ sh.bits ++ 0b0#1 ++ rm)
  | .strtImm c u rn rd imm12 => .arm (c.bits ++ 0b0100#4 ++ BitVec.ofBool u ++ 0b010#3 ++ rn ++ rd ++ imm12)
  | .strtReg c u rn rd amt sh rm => .arm (c.bits ++ 0b0110#4 ++ BitVec.ofBool u ++ 0b010#3 ++ rn ++ rd ++ amt ++ sh.bits ++ 0b0#1 ++ rm)
  | .ldrbtImm c u rn rd imm12 => .arm (c.bits ++ 0b0100#4 ++ BitVec.ofBool u ++ 0b111#3 ++ rn ++ rd ++ imm12)
  | .ldrbtReg c u rn rd amt sh rm => .arm (c.bits ++ 0b0110#4 ++ BitVec.ofBool u ++ 0b111#3 ++ rn ++ rd ++ amt ++ sh.bits ++ 0b0#1 ++ rm)
  | .strbtImm c u rn rd imm12 => .arm (c.bits ++ 0b0100#4 ++ BitVec.ofBool u ++ 0b110#3 ++ rn ++ rd ++ imm12)
  | .strbtReg c u rn rd amt sh rm => .arm (c.bits ++ 0b0110#4 ++ BitVec.ofBool u ++ 0b110#3 ++ rn ++ rd ++ amt ++ sh.bits ++ 0b0#1 ++ rm)
  | .und c hi lo => .arm (c.bits ++ 0b011#3 ++ hi ++ 0b1#1 ++ lo)
  | .ldm c p u w rn list => .arm (c.bits ++ 0b100#3 ++ BitVec.ofBool p ++ BitVec.ofBool u ++ 0b0#1 ++ BitVec.ofBool w ++ 0b1#1 ++ rn ++ list)
  | .stm c p u w rn list => .arm (c.bits ++ 0b100#3 ++ BitVec.ofBool p ++ BitVec.ofBool u ++ 0b0#1 ++ BitVec.ofBool w ++ 0b0#1 ++ rn ++ list)
  | .ldmUsr c p u w rn list => .arm (c.bits ++ 0b100#3 ++ BitVec.ofBool p ++ BitVec.ofBool u ++ 0b1#1 ++ BitVec.ofBool w ++ 0b1#1 ++ rn ++ 0b0#1 ++ list)
  | .ldmRet c p u w rn list => .arm (c.bits ++ 0b100#3 ++ BitVec.ofBool p ++ BitVec.ofBool u ++ 0b1#1 ++ BitVec.ofBool w ++ 0b1#1 ++ rn ++ 0b1#1 ++ list)
  | .stmUsr c p u w rn list => .arm (c.bits ++ 0b100#3 ++ BitVec.ofBool p ++ BitVec.ofBool u ++ 0b1#1 ++ BitVec.ofBool w ++ 0b0#1 ++ rn ++ list)
  | .b c off => .arm (c.bits ++ 0b1010#4 ++ off)
  | .bl c off => .arm (c.bits ++ 0b1011#4 ++ off)
  | .ldc c p u n w rn crd cp off8 => .arm (c.bits ++ 0b110#3 ++ BitVec.ofBool p ++ BitVec.ofBool u ++ BitVec.ofBool n ++ BitVec.ofBool w ++ 0b1#1 ++ rn ++ crd ++ cp ++ off8)
  | .stc c p u n w rn crd cp off8 => .arm (c.bits ++ 0b110#3 ++ BitVec.ofBool p ++ BitVec.ofBool u ++ BitVec.ofBool n ++ BitVec.ofBool w ++ 0b0#1 ++ rn ++ crd ++ cp ++ off8)
  | .cdp c op1 crn crd cp op2 crm => .arm (c.bits ++ 0b1110#4 ++ op1 ++ crn ++ crd ++ cp ++ op2 ++ 0b0#1 ++ crm)
  | .mcr c op1 crn rd cp op2 crm => .arm (c.bits ++ 0b1110#4 ++ op1 ++ 0b0#1 ++ crn ++ rd ++ cp ++ op2 ++ 0b1#1 ++ crm)
  | .mrc c op1 crn rd cp op2 crm => .arm (c.bits ++ 0b1110#4 ++ op1 ++ 0b1#1 ++ crn ++ rd ++ cp ++ op2 ++ 0b1#1 ++ crm)
  | .swi c comment => .arm (c.bits ++ 0b1111#4 ++ comment)
  | .tLslImm off5 rs rd => .thumb (0b00000#5 ++ off5 ++ rs ++ rd)
  | .tLsrImm off5 rs rd => .thumb (0b00001#5 ++ off5 ++ rs ++ rd)
  | .tAsrImm off5 rs rd => .thumb (0b00010#5 ++ off5 ++ rs ++ rd)
  | .tAddReg rn rs rd => .thumb (0b0001100#7 ++ rn ++ rs ++ rd)
  | .tSubReg rn rs rd => .thumb (0b0001101#7 ++ rn ++ rs ++ rd)
  | .tAddImm3 imm3 rs rd => .thumb (0b0001110#7 ++ imm3 ++ rs ++ rd)
  | .tSubImm3 imm3 rs rd => .thumb (0b0001111#7 ++ imm3 ++ rs ++ rd)
  | .tMovImm rd imm8 => .thumb (0b00100#5 ++ rd ++ imm8)
  | .tCmpImm rd imm8 => .thumb (0b00101#5 ++ rd ++ imm8)
  | .tAddImm8 rd imm8 => .thumb (0b00110#5 ++ rd ++ imm8)
  | .tSubImm8 rd imm8 => .thumb (0b00111#5 ++ rd ++ imm8)
  | .tAnd rs rd => .thumb (0b0100000000#10 ++ rs ++ rd)
  | .tEor rs rd => .thumb (0b0100000001#10 ++ rs ++ rd)
  | .tLslReg rs rd => .thumb (0b0100000010#10 ++ rs ++ rd)
  | .tLsrReg rs rd => .thumb (0b0100000011#10 ++ rs ++ rd)
  | .tAsrReg rs rd => .thumb (0b0100000100#10 ++ rs ++ rd)
  | .tAdc rs rd => .thumb (0b0100000101#10 ++ rs ++ rd)
  | .tSbc rs rd => .thumb (0b0100000110#10 ++ rs ++ rd)
  | .tRor rs rd => .thumb (0b0100000111#10 ++ rs ++ rd)
  | .tTst rs rd => .thumb (0b0100001000#10 ++ rs ++ rd)
  | .tNeg rs rd => .thumb (0b0100001001#10 ++ rs ++ rd)
  | .tCmpReg rs rd => .thumb (0b0100001010#10 ++ rs ++ rd)
  | .tCmn rs rd => .thumb (0b0100001011#10 ++ rs ++ rd)
  | .tOrr rs rd => .thumb (0b0100001100#10 ++ rs ++ rd)
  | .tMul rs rd => .thumb (0b0100001101#10 ++ rs ++ rd)
  | .tBic rs rd => .thumb (0b0100001110#10 ++ rs ++ rd)
  | .tMvn rs rd => .thumb (0b0100001111#10 ++ rs ++ rd)
  | .tAddHi h1 h2 rs rd => .thumb (0b01000100#8 ++ BitVec.ofBool h1 ++ BitVec.ofBool h2 ++ rs ++ rd)
  | .tCmpHi h1 h2 rs rd => .thumb (0b01000101#8 ++ BitVec.ofBool h1 ++ BitVec.ofBool h2 ++ rs ++ rd)
  | .tMovHi h1 h2 rs rd => .thumb (0b01000110#8 ++ BitVec.ofBool h1 ++ BitVec.ofBool h2 ++ rs ++ rd)
  | .tBx sbzA h2 rs sbzB => .thumb (0b01000111#8 ++ sbzA ++ BitVec.ofBool h2 ++ rs ++ sbzB)
  | .tLdrPc rd word8 => .thumb (0b01001#5 ++ rd ++ word8)
  | .tStrReg ro rb rd => .thumb (0b0101000#7 ++ ro ++ rb ++ rd)
  | .tStrbReg ro rb rd => .thumb (0b0101010#7 ++ ro ++ rb ++ rd)
  | .tLdrReg ro rb rd => .thumb (0b0101100#7 ++ ro ++ rb ++ rd)
  | .tLdrbReg ro rb rd => .thumb (0b0101110#7 ++ ro ++ rb ++ rd)
  | .tStrhReg ro rb rd => .thumb (0b0101001#7 ++ ro ++ rb ++ rd)
  | .tLdsb ro rb rd => .thumb (0b0101011#7 ++ ro ++ rb ++ rd)
  | .tLdrhReg ro rb rd => .thumb (0b0101101#7 ++ ro ++ rb ++ rd)
  | .tLdsh ro rb rd => .thumb (0b0101111#7 ++ ro ++ rb ++ rd)
  | .tStrImm off5 rb rd => .thumb (0b01100#5 ++ off5 ++ rb ++ rd)
  | .tLdrImm off5 rb rd => .thumb (0b01101#5 ++ off5 ++ rb ++ rd)
  | .tStrbImm off5 rb rd => .thumb (0b01110#5 ++ off5 ++ rb ++ rd)
  | .tLdrbImm off5 rb rd => .thumb (0b01111#5 ++ off5 ++ rb ++ rd)
  | .tStrhImm off5 rb rd => .thumb (0b10000#5 ++ off5 ++ rb ++ rd)
  | .tLdrhImm off5 rb rd => .thumb (0b10001#5 ++ off5 ++ rb ++ rd)
  | .tStrSp rd word8 => .thumb (0b10010#5 ++ rd ++ word8)
  | .tLdrSp rd word8 => .thumb (0b10011#5 ++ rd ++ word8)
  | .tAddPc rd word8 => .thumb (0b10100#5 ++ rd ++ word8)
  | .tAddSp rd word8 => .thumb (0b10101#5 ++ rd ++ word8)
  | .tAddSpImm s sword7 => .thumb (0b10110000#8 ++ BitVec.ofBool s ++ sword7)
  | .tPush r list => .thumb (0b1011010#7 ++ BitVec.ofBool r ++ list)
  | .tPop r list => .thumb (0b1011110#7 ++ BitVec.ofBool r ++ list)
  | .tStmia rb list => .thumb (0b11000#5 ++ rb ++ list)
  | .tLdmia rb list => .thumb (0b11001#5 ++ rb ++ list)
  | .tBCond cond soff8 => .thumb (0b1101#4 ++ cond.bits ++ soff8)
  | .tSwi value8 => .thumb (0b11011111#8 ++ value8)
  | .tB off11 => .thumb (0b11100#5 ++ off11)
  | .tBlHi off11 => .thumb (0b11110#5 ++ off11)
  | .tBlLo off11 => .thumb (0b11111#5 ++ off11)

/-- What the decoder reads from an instruction whose bits are `w` in the opcode table's numbering: the bytes in
memory order, at the length of the table's row (Thumb rows have 16 bits, ARM rows 32). -/
def decodeTableWord (nbits w : Nat) : Option Instr :=
  let thumb := decide (nbits ≤ 16)
  let code : Code := if thumb then .thumb (BitVec.ofNat 16 w) else .arm (BitVec.ofNat 32 w)
  match decodeBytes thumb code.bytes with
  | .ok (i, _) => some i
  | .error _ => none

end Sys2Proof
end

