-- ==== Sys2Proof/Machine/Devices.lean ====
section
/-!
DEFINITION. What the platform devices do when time advances (spec/60_exceptions.md sections 4 to 7): the timers, the
DMA engine, the PPU's scanline controller and the APU's FIFOs.  Each advance is cycle by cycle, so its events fall in
time order.
-/

namespace Sys2Proof.Machine

/-- Apply a step `k` times. -/
def iterate {α : Type} (f : α → α) : Nat → α → α
  | 0, a => a
  | k + 1, a => iterate f k (f a)

-- Timers

/-- The prescaler divisors (R535). -/
def Timer.divisor (t : Timer) : Nat :=
  match t.prescaler with
  | 0#2 => 1
  | 1#2 => 64
  | 2#2 => 256
  | _ => 1024

/-- The timer of a FIFO: bit 10 of `SOUNDCNT_H` for A, bit 14 for B; 0 is timer 0, 1 is timer 1 (R561). -/
def fifoTimer (bit : Bool) : Fin 4 := if bit then 1 else 0

/-- Signal one drain (R536). -/
def Fifo.signal (q : Fifo) : Fifo := { q with drains := q.drains + 1 }

/-- What an overflow of timer `n` does beside its reload and cascade (R536): its IRQ request, and a drain of each FIFO
that selects it. -/
def timerOverflow (n : Fin 4) (irq : Bool) (s : State) : State :=
  let d1 := if irq then s.dev.request (3 + n.val) else s.dev
  let d2 := if fifoTimer (s.soundCntHigh.getLsbD 2) = n then { d1 with fifoA := d1.fifoA.signal } else d1
  let d3 := if fifoTimer (s.soundCntHigh.getLsbD 6) = n then { d2 with fifoB := d2.fifoB.signal } else d2
  s.setDev d3

/-- Add 1 to timer `n`; past 0xFFFF it overflows to its reload value (R536).  Also says whether it overflowed. -/
def timerTick (n : Fin 4) (s : State) : State × Bool :=
  let t := s.dev.timers[n]
  if t.counter = 0xFFFF then
    (timerOverflow n t.irq (s.setDev (s.dev.setTimer n { t with counter := t.reload })), true)
  else (s.setDev (s.dev.setTimer n { t with counter := t.counter + 1 }), false)

/-- One cycle of timer `n`, given whether the timer before it has just overflowed (R536, R538). -/
def timerCycle (n : Fin 4) (cascadeIn : Bool) (s : State) : State × Bool :=
  let t := s.dev.timers[n]
  if !t.enable then (s, false)
  else if t.cascade && n != 0 then (if cascadeIn then timerTick n s else (s, false))
  else if t.divisor ≤ t.count + 1 then timerTick n (s.setDev (s.dev.setTimer n { t with count := 0 }))
  else (s.setDev (s.dev.setTimer n { t with count := t.count + 1 }), false)

/-- One cycle of all four timers, in order, so that a cascade reaches the next timer in the same cycle. -/
def timersCycle (s : State) : State :=
  let (s0, o0) := timerCycle 0 false s
  let (s1, o1) := timerCycle 1 o0 s0
  let (s2, o2) := timerCycle 2 o1 s1
  (timerCycle 3 o2 s2).1

/-- `Timers.advance(cycles)` (R530). -/
def timersAdvance (cycles : Nat) (s : State) : State := iterate timersCycle cycles s

-- DMA

/-- A channel in sound FIFO mode: DMA1 or DMA2 with special timing (R544). -/
def DmaChannel.fifoMode (c : DmaChannel) (n : Fin 4) : Bool := (n == 1 || n == 2) && c.timing == 3

/-- The unit width of a transfer (R540, R544). -/
def DmaChannel.width (c : DmaChannel) (n : Fin 4) : Width :=
  if c.fifoMode n || c.ctl.getLsbD 10 then .word else .half

/-- The units of a transfer: 4 in sound FIFO mode, else the latched count (R543, R544). -/
def DmaChannel.units (c : DmaChannel) (n : Fin 4) : Nat := if c.fifoMode n then 4 else c.cnt

/-- The change of an address after each unit (R543); source control 3 counts as increment (R540).  It does so in a strict
machine too, where a transfer and no CPU store left it in an armed channel: DESIGN CHOICE, log entry 36. -/
def addressStep (ctl : BitVec 2) (w : Width) : Word :=
  let size := BitVec.ofNat 32 w.bytes
  if ctl = 1 then -size else if ctl = 2 then 0 else size

/-- The source step (R543). -/
def DmaChannel.srcStep (c : DmaChannel) (n : Fin 4) : Word := addressStep c.srcCtl (c.width n)

/-- The destination step; fixed in sound FIFO mode (R543, R544). -/
def DmaChannel.dstStep (c : DmaChannel) (n : Fin 4) : Word :=
  if c.fifoMode n then 0 else addressStep c.dstCtl (c.width n)

/-- A transfer in progress: the addresses of the next unit and the machine. -/
structure Transfer where
  src : Word
  dst : Word
  machine : State
  deriving DecidableEq, Repr

/-- One unit through the bus (R543).  No instruction is executing, so a BIOS source is open bus (log entry 18).  The cases
of R541 belong to a CPU store: a unit written into `DMAnCNT_H` stops nothing, whatever it leaves there, and the DRQ bit
then has no effect.  DESIGN CHOICE, log entry 36. -/
def transferUnit (w : Width) (dSrc dDst : Word) (t : Transfer) : Transfer :=
  let (v, s) := busRead false (w.align t.src) w t.machine
  { src := t.src + dSrc, dst := t.dst + dDst, machine := busWrite (w.align t.dst) w v s }

/-- The end of a transfer (R543): the IRQ request; then a repeating channel that is not immediate stays armed with its
count, and with destination control 3 its destination, latched again; any other channel disarms.  In sound FIFO mode too
the destination is latched again, which R544 can be read to deny.  DESIGN CHOICE, log entry 38. -/
def DmaChannel.finish (c : DmaChannel) (n : Fin 4) (src dst : Word) : DmaChannel :=
  if c.ctl.getLsbD 9 && c.timing != 0 then
    { c with
      src := src, dst := if c.dstCtl == 3 then c.latchDst n else dst
      cnt := c.latchCnt n }
  else { c with src := src, dst := dst, ctl := c.ctl &&& 0x7FFF, due := false }

/-- Run a due channel to completion (R543).  The width, steps and count are those the channel holds at the start. -/
def dmaRun (n : Fin 4) (s : State) : State :=
  let c := s.dev.dma[n]
  let start : Transfer :=
    { src := c.src, dst := c.dst, machine := s.setDev (s.dev.setDma n { c with due := false }) }
  let done := iterate (transferUnit (c.width n) (c.srcStep n) (c.dstStep n)) (c.units n) start
  let after := done.machine.dev.dma[n]
  let d := done.machine.dev.setDma n (after.finish n done.src done.dst)
  done.machine.setDev (if after.ctl.getLsbD 14 then d.request (8 + n.val) else d)

/-- The due channel with the lowest number (R545). -/
def nextDue (s : State) : Option (Fin 4) :=
  ([0, 1, 2, 3] : List (Fin 4)).find? (fun n => s.dev.dma[n].due)

/-- Run due channels, lowest number first, a channel that a transfer makes due after the channel that wrote (R545); at
most `k` of them, since two channels can arm each other without end (log entry 13). -/
def dmaRunDue : Nat → State → State
  | 0, s => s
  | k + 1, s =>
    match nextDue s with
    | some n => dmaRunDue k (dmaRun n s)
    | none => s

/-- How many channels one step runs before it leaves the rest of the advance to the next step (log entry 13). -/
def dmaBurst : Nat := 16

/-- Make due every armed channel that a trigger selects (R542).  A channel that is due already stays due: its triggers of one
device advance give one transfer.  DESIGN CHOICE, log entry 37. -/
def trigger (selects : Fin 4 → DmaChannel → Bool) (d : Devices) : Devices :=
  ([0, 1, 2, 3] : List (Fin 4)).foldl
    (fun d n =>
      let c := d.dma[n]
      if c.armed && selects n c then d.setDma n { c with due := true } else d) d

-- PPU

/-- Reaching dot 240 of a visible line: the HBlank DMA trigger and IRQ (R542, R553). -/
def hblankEvent (d : Devices) : Devices :=
  let d1 := trigger (fun _ c => c.timing == 2) d
  if d1.dispstat.hblankIrq then d1.request 1 else d1

/-- Entering line 160: the VBlank DMA trigger and IRQ (R542, R553). -/
def vblankEvent (d : Devices) : Devices :=
  let d1 := trigger (fun _ c => c.timing == 1) d
  if d1.dispstat.vblankIrq then d1.request 0 else d1

/-- Entering a line: VBlank at 160, and the VCount IRQ at the line of `DISPSTAT[15:8]` (R553). -/
def enterLine (d : Devices) : Devices :=
  let d1 := if d.ppu.line = 160 then vblankEvent d else d
  if d1.vcountMatch && d1.dispstat.vcountIrq then d1.request 2 else d1

/-- The next dot: after dot 307 the next line, after line 227 line 0 (R552). -/
def nextDot (d : Devices) : Devices :=
  if d.ppu.dot = 307 then enterLine { d with ppu := { line := d.ppu.line + 1, dot := 0, sub := 0 } }
  else
    let d1 := { d with ppu := { d.ppu with dot := d.ppu.dot + 1, sub := 0 } }
    if d1.ppu.dot = 240 && d1.ppu.line.val < 160 then hblankEvent d1 else d1

/-- One cycle; a dot is four (R552). -/
def ppuCycle (d : Devices) : Devices :=
  if d.ppu.sub = 3 then nextDot d else { d with ppu := { d.ppu with sub := d.ppu.sub + 1 } }

/-- `PPU.advance(cycles)` (R530). -/
def ppuAdvance (cycles : Nat) (s : State) : State := s.setDev (iterate ppuCycle cycles s.dev)

-- APU

/-- Pop one byte, if there is one (R562). -/
def Fifo.pop (q : Fifo) : Fifo := { q with bytes := q.bytes.drop 1 }

/-- An address is that of the I/O register at a given offset of the region (R88, R580). -/
def isIoAddress (bus : Bus) (off : Nat) (a : Word) : Bool := region bus a == .io && regionOffset bus a == off

/-- The channels a refill request of a FIFO makes due: DMA1 and DMA2 armed with special timing whose `DAD` is the
FIFO's address (R542, R562, log entry 21). -/
def refill (bus : Bus) (off : Nat) (d : Devices) : Devices :=
  trigger (fun n c => c.fifoMode n && isIoAddress bus off c.dad) d

/-- One drain of FIFO A: pop, then request a refill at 16 bytes or fewer (R562). -/
def drainA (bus : Bus) (d : Devices) : Devices :=
  let d1 := { d with fifoA := d.fifoA.pop }
  if d1.fifoA.bytes.length ≤ 16 then refill bus 0xA0 d1 else d1

/-- One drain of FIFO B (R562). -/
def drainB (bus : Bus) (d : Devices) : Devices :=
  let d1 := { d with fifoB := d.fifoB.pop }
  if d1.fifoB.bytes.length ≤ 16 then refill bus 0xA4 d1 else d1

/-- The signalled drains are used up. -/
def Devices.noDrains (d : Devices) : Devices :=
  { d with fifoA := { d.fifoA with drains := 0 }, fifoB := { d.fifoB with drains := 0 } }

/-- `APU.advance(cycles)` (R530): the drains the timers signalled, unless the master enable is off (R561, R562). -/
def apuAdvance (s : State) : State :=
  if s.soundMaster then
    s.setDev (iterate (drainB s.bus) s.dev.fifoB.drains (iterate (drainA s.bus) s.dev.fifoA.drains s.dev)).noDrains
  else s.setDev s.dev.noDrains

end Sys2Proof.Machine
end

