-- ==== Sys2Proof/Machine/Scheduler.lean ====
section
/-!
DEFINITION. What surrounds an instruction (spec/60_exceptions.md sections 2 and 3): the fetch, a word that is no
instruction, the interrupt poll, and the devices' part of a scheduler iteration (R530).
-/

namespace Sys2Proof.Machine

/-- The fetch of R45: the aligned word in ARM state, the aligned halfword in Thumb state, through the bus. -/
def fetch (s : State) : Code × State :=
  if s.cpsr.t then
    let (v, s') := busRead s.inBios (align2 s.pc) .half s
    (.thumb (v.extractLsb' 0 16), s')
  else
    let (v, s') := busRead s.inBios (align4 s.pc) .word s
    (.arm v, s')

/-- A fetched word of no row raises Undefined: an ARM word once its condition passes (R170, R366), a Thumb halfword at
once (R171, R477). -/
def undecoded : Code → State → Outcome
  | .arm w, s => undefinedArm (condAt w 28) s
  | .thumb _, s => undefinedThumb s

/-- The KEYCNT condition: any selected button pressed, or all of them (R565, log entry 23). -/
def keypadCondition (s : State) : Bool :=
  let k := s.dev.keycnt
  if k.all then s.buttons &&& k.select == k.select else s.buttons &&& k.select != 0

/-- The keypad's part of a poll (R565). -/
def keypadPoll (s : State) : State :=
  if s.dev.keycnt.irq && keypadCondition s then s.setDev (s.dev.request 12) else s

/-- `(IE AND IF)[13:0] != 0` (R520, R570). -/
def Devices.pending (d : Devices) : Bool := d.ie &&& d.iflags != 0

/-- `irq_pending` of R520. -/
def Devices.irqPending (d : Devices) : Bool := d.ime && d.pending

/-- An enabled request ends the halt, whatever IME and CPSR.I are (R570). -/
def wake (s : State) : State :=
  if s.dev.halted && s.dev.pending then s.setDev { s.dev with halted := false } else s

/-- The interrupt poll (R522): the keypad condition, the end of a halt, then FIQ before IRQ, at most one entry
(R507, R520, R521). -/
def poll (s : State) : State :=
  let s1 := wake (keypadPoll s)
  if s1.fiqLine && !s1.cpsr.f then takeException .fiq s1
  else if s1.dev.irqPending && !s1.cpsr.i then takeException .irq s1
  else s1

/-- The iteration after its DMA advance: PPU, APU, poll (R530). -/
def finishIteration (cycles : Nat) (s : State) : State :=
  let s1 := poll (apuAdvance (ppuAdvance cycles s))
  { s1 with iteration := s1.iteration + 1, dmaResume := none }

/-- The DMA advance and what follows it; if channels are still due after a burst, the next step goes on with them
(log entry 13). -/
def dmaPhase (cycles : Nat) (s : State) : State :=
  let s1 := dmaRunDue dmaBurst s
  match nextDue s1 with
  | none => finishIteration cycles s1
  | some _ => { s1 with dmaResume := some cycles }

/-- The devices' part of an iteration, after the CPU step or in a halt (R530): Timers, DMA, PPU, APU, poll. -/
def advanceDevices (s : State) : State := dmaPhase s.cycles (timersAdvance s.cycles s)

-- An instruction placed where it is fetched

/-- Memory with a list of bytes from an address on. -/
def placeBytes (bus : Bus) (a : Word) (bytes : List Byte) (m : Memory) : Memory :=
  match bytes with
  | [] => m
  | b :: rest => placeBytes bus (a + 1) rest (m.write (cell bus a) b)

/-- The region holds bytes that a fetch reads back (R88). -/
def holdsCode (r : Region) : Bool :=
  match r with
  | .bios | .ewram | .iwram | .palette | .vram | .oam | .rom => true
  | .io | .save | .unmapped => false

/-- Where a word placed at the pc is put: the pc itself, or the start of EWRAM where no byte at the pc can hold it
(log entry 6). -/
def placedPc (bus : Bus) (pc : Word) : Word := if holdsCode (region bus pc) then pc else 0x02000000

/-- The machine about to fetch a given word (log entry 6): CPSR.T tells its instruction set, its bytes lie at the
aligned pc, in the BIOS the image is there, in ROM it reaches past them, and nothing stands before the CPU step of the
next iteration. -/
def placeCode (code : Code) (s : State) : State :=
  let pc := placedPc s.bus s.pc
  let at_ := match code with
    | .arm _ => align4 pc
    | .thumb _ => align2 pc
  let t := match code with
    | .arm _ => false
    | .thumb _ => true
  let romEnd := if region s.bus pc == .rom then max s.params.romSize (regionOffset s.bus at_ + code.bytes.length)
    else s.params.romSize
  { s with
    pc := pc
    cpsr := { s.cpsr with t := t }
    mem := placeBytes s.bus at_ code.bytes s.mem
    dev := { s.dev with halted := false }
    params := { s.params with biosImage := s.params.biosImage || region s.bus pc == .bios, romSize := romEnd }
    dmaResume := none }

end Sys2Proof.Machine
end

