-- ==== Sys2Proof/Machine/Step.lean ====
section
/-!
DEFINITION. One step of the machine: an iteration of the scheduler (spec/60_exceptions.md rule R530).
-/

namespace Sys2Proof.Machine

/-- The CPU step (R45): fetch, decode, execute. -/
def cpuStep (s : State) : Outcome :=
  let (code, s1) := fetch s
  match decode code with
  | .ok i => exec i s1
  | .error _ => undecoded code s1

/-- One step: the rest of a DMA advance that the last step left (log entry 13), or a whole iteration, whose CPU step is
left out while the machine is halted (R530, R570). -/
def step (s : State) : Host.Outcome State Fault Refusal :=
  match s.dmaResume with
  | some cycles => .next (dmaPhase cycles s)
  | none =>
    if s.dev.halted then .next (advanceDevices s)
    else
      match cpuStep s with
      | .next s1 => .next (advanceDevices s1)
      | .fault e => .fault e
      | .refused r => .refused r

/-- The machine with an instruction, its bits numbered as in spec/opcode_table.json, where `step` fetches next. -/
def State.withFetchWord (s : State) (nbits w : Nat) : State :=
  placeCode (if nbits ≤ 16 then .thumb (BitVec.ofNat 16 w) else .arm (BitVec.ofNat 32 w)) s

end Sys2Proof.Machine
end

