-- ==== Sys2Proof/Safety.lean ====
section
/-!
DEFINITION. The terms the claims are stated in: runs, when an instruction's own effect happens, the shape of a state
after an instruction, the data-processing instructions as a family, the spec's arithmetic on integers, and the
invariants of the machine.
-/

namespace Sys2Proof.Machine

-- Runs

/-- `t` follows from `s` by some number of steps. -/
def Reaches (s t : State) : Prop := ∃ k, Host.Core.run Sys2Proof.core k s = .next t

/-- A run of `k` steps stops nowhere. -/
def SafeFor (k : Nat) (s : State) : Prop := ∃ t, Host.Core.run Sys2Proof.core k s = .next t

-- Instructions

/-- The condition of an ARM instruction; a Thumb instruction has none (R200, R400). -/
def condOf : Instr → Option Cond
  | .andImm c _ _ _ _ _ => some c
  | .andRsi c _ _ _ _ _ _ => some c
  | .andRsr c _ _ _ _ _ _ => some c
  | .eorImm c _ _ _ _ _ => some c
  | .eorRsi c _ _ _ _ _ _ => some c
  | .eorRsr c _ _ _ _ _ _ => some c
  | .subImm c _ _ _ _ _ => some c
  | .subRsi c _ _ _ _ _ _ => some c
  | .subRsr c _ _ _ _ _ _ => some c
  | .rsbImm c _ _ _ _ _ => some c
  | .rsbRsi c _ _ _ _ _ _ => some c
  | .rsbRsr c _ _ _ _ _ _ => some c
  | .addImm c _ _ _ _ _ => some c
  | .addRsi c _ _ _ _ _ _ => some c
  | .addRsr c _ _ _ _ _ _ => some c
  | .adcImm c _ _ _ _ _ => some c
  | .adcRsi c _ _ _ _ _ _ => some c
  | .adcRsr c _ _ _ _ _ _ => some c
  | .sbcImm c _ _ _ _ _ => some c
  | .sbcRsi c _ _ _ _ _ _ => some c
  | .sbcRsr c _ _ _ _ _ _ => some c
  | .rscImm c _ _ _ _ _ => some c
  | .rscRsi c _ _ _ _ _ _ => some c
  | .rscRsr c _ _ _ _ _ _ => some c
  | .tstImm c _ _ _ _ => some c
  | .tstRsi c _ _ _ _ _ => some c
  | .tstRsr c _ _ _ _ _ => some c
  | .teqImm c _ _ _ _ => some c
  | .teqRsi c _ _ _ _ _ => some c
  | .teqRsr c _ _ _ _ _ => some c
  | .cmpImm c _ _ _ _ => some c
  | .cmpRsi c _ _ _ _ _ => some c
  | .cmpRsr c _ _ _ _ _ => some c
  | .cmnImm c _ _ _ _ => some c
  | .cmnRsi c _ _ _ _ _ => some c
  | .cmnRsr c _ _ _ _ _ => some c
  | .orrImm c _ _ _ _ _ => some c
  | .orrRsi c _ _ _ _ _ _ => some c
  | .orrRsr c _ _ _ _ _ _ => some c
  | .movImm c _ _ _ _ _ => some c
  | .movRsi c _ _ _ _ _ _ => some c
  | .movRsr c _ _ _ _ _ _ => some c
  | .bicImm c _ _ _ _ _ => some c
  | .bicRsi c _ _ _ _ _ _ => some c
  | .bicRsr c _ _ _ _ _ _ => some c
  | .mvnImm c _ _ _ _ _ => some c
  | .mvnRsi c _ _ _ _ _ _ => some c
  | .mvnRsr c _ _ _ _ _ _ => some c
  | .mul c _ _ _ _ _ => some c
  | .mla c _ _ _ _ _ => some c
  | .umull c _ _ _ _ _ => some c
  | .umlal c _ _ _ _ _ => some c
  | .smull c _ _ _ _ _ => some c
  | .smlal c _ _ _ _ _ => some c
  | .mrs c _ _ _ _ _ _ => some c
  | .msrReg c _ _ _ _ _ _ => some c
  | .msrImm c _ _ _ _ _ => some c
  | .swp c _ _ _ _ => some c
  | .swpb c _ _ _ _ => some c
  | .bx c _ _ => some c
  | .strhReg c _ _ _ _ _ _ _ => some c
  | .strhImm c _ _ _ _ _ _ _ => some c
  | .ldrhReg c _ _ _ _ _ _ _ => some c
  | .ldrhImm c _ _ _ _ _ _ _ => some c
  | .ldrsbReg c _ _ _ _ _ _ _ => some c
  | .ldrsbImm c _ _ _ _ _ _ _ => some c
  | .ldrshReg c _ _ _ _ _ _ _ => some c
  | .ldrshImm c _ _ _ _ _ _ _ => some c
  | .ldrImmPre c _ _ _ _ _ => some c
  | .ldrImmPost c _ _ _ _ => some c
  | .ldrRegPre c _ _ _ _ _ _ _ => some c
  | .ldrRegPost c _ _ _ _ _ _ => some c
  | .strImmPre c _ _ _ _ _ => some c
  | .strImmPost c _ _ _ _ => some c
  | .strRegPre c _ _ _ _ _ _ _ => some c
  | .strRegPost c _ _ _ _ _ _ => some c
  | .ldrbImmPre c _ _ _ _ _ => some c
  | .ldrbImmPost c _ _ _ _ => some c
  | .ldrbRegPre c _ _ _ _ _ _ _ => some c
  | .ldrbRegPost c _ _ _ _ _ _ => some c
  | .strbImmPre c _ _ _ _ _ => some c
  | .strbImmPost c _ _ _ _ => some c
  | .strbRegPre c _ _ _ _ _ _ _ => some c
  | .strbRegPost c _ _ _ _ _ _ => some c
  | .ldrtImm c _ _ _ _ => some c
  | .ldrtReg c _ _ _ _ _ _ => some c
  | .strtImm c _ _ _ _ => some c
  | .strtReg c _ _ _ _ _ _ => some c
  | .ldrbtImm c _ _ _ _ => some c
  | .ldrbtReg c _ _ _ _ _ _ => some c
  | .strbtImm c _ _ _ _ => some c
  | .strbtReg c _ _ _ _ _ _ => some c
  | .und c _ _ => some c
  | .ldm c _ _ _ _ _ => some c
  | .stm c _ _ _ _ _ => some c
  | .ldmUsr c _ _ _ _ _ => some c
  | .ldmRet c _ _ _ _ _ => some c
  | .stmUsr c _ _ _ _ _ => some c
  | .b c _ => some c
  | .bl c _ => some c
  | .ldc c _ _ _ _ _ _ _ _ => some c
  | .stc c _ _ _ _ _ _ _ _ => some c
  | .cdp c _ _ _ _ _ _ => some c
  | .mcr c _ _ _ _ _ _ => some c
  | .mrc c _ _ _ _ _ _ => some c
  | .swi c _ => some c
  | .tLslImm _ _ _ => none
  | .tLsrImm _ _ _ => none
  | .tAsrImm _ _ _ => none
  | .tAddReg _ _ _ => none
  | .tSubReg _ _ _ => none
  | .tAddImm3 _ _ _ => none
  | .tSubImm3 _ _ _ => none
  | .tMovImm _ _ => none
  | .tCmpImm _ _ => none
  | .tAddImm8 _ _ => none
  | .tSubImm8 _ _ => none
  | .tAnd _ _ => none
  | .tEor _ _ => none
  | .tLslReg _ _ => none
  | .tLsrReg _ _ => none
  | .tAsrReg _ _ => none
  | .tAdc _ _ => none
  | .tSbc _ _ => none
  | .tRor _ _ => none
  | .tTst _ _ => none
  | .tNeg _ _ => none
  | .tCmpReg _ _ => none
  | .tCmn _ _ => none
  | .tOrr _ _ => none
  | .tMul _ _ => none
  | .tBic _ _ => none
  | .tMvn _ _ => none
  | .tAddHi _ _ _ _ => none
  | .tCmpHi _ _ _ _ => none
  | .tMovHi _ _ _ _ => none
  | .tBx _ _ _ _ => none
  | .tLdrPc _ _ => none
  | .tStrReg _ _ _ => none
  | .tStrbReg _ _ _ => none
  | .tLdrReg _ _ _ => none
  | .tLdrbReg _ _ _ => none
  | .tStrhReg _ _ _ => none
  | .tLdsb _ _ _ => none
  | .tLdrhReg _ _ _ => none
  | .tLdsh _ _ _ => none
  | .tStrImm _ _ _ => none
  | .tLdrImm _ _ _ => none
  | .tStrbImm _ _ _ => none
  | .tLdrbImm _ _ _ => none
  | .tStrhImm _ _ _ => none
  | .tLdrhImm _ _ _ => none
  | .tStrSp _ _ => none
  | .tLdrSp _ _ => none
  | .tAddPc _ _ => none
  | .tAddSp _ _ => none
  | .tAddSpImm _ _ => none
  | .tPush _ _ => none
  | .tPop _ _ => none
  | .tStmia _ _ => none
  | .tLdmia _ _ => none
  | .tBCond _ _ => none
  | .tSwi _ => none
  | .tB _ => none
  | .tBlHi _ => none
  | .tBlLo _ => none

/-- An instruction of the Thumb set: its code is a halfword (R130). -/
def isThumb (i : Instr) : Bool :=
  match encode i with
  | .thumb _ => true
  | .arm _ => false

/-- What lets an instruction's own effect happen: an ARM condition passes (R200), and the machine either does not treat
UNPREDICTABLE cases strictly, or the word is well formed and no User-bank transfer came just before it (R20, R21,
R611). -/
structure Runs (i : Instr) (s : State) : Prop where
  passes : ∀ c, condOf i = some c → condPassed c s.cpsr = true
  free : s.strict = false ∨ (i.WellFormed ∧ s.lastUsrBank = false)

/-- The data-processing instruction of an operation with an immediate; `sbz` fills the field a row lacks (R132). -/
def dpImmInstr (op : DpOp) (c : Cond) (sf : Bool) (sbz : BitVec 4) (rn rd : Reg) (rot : BitVec 4) (imm8 : BitVec 8) :
    Instr :=
  match op with
  | .and => .andImm c sf rn rd rot imm8
  | .eor => .eorImm c sf rn rd rot imm8
  | .sub => .subImm c sf rn rd rot imm8
  | .rsb => .rsbImm c sf rn rd rot imm8
  | .add => .addImm c sf rn rd rot imm8
  | .adc => .adcImm c sf rn rd rot imm8
  | .sbc => .sbcImm c sf rn rd rot imm8
  | .rsc => .rscImm c sf rn rd rot imm8
  | .tst => .tstImm c rn sbz rot imm8
  | .teq => .teqImm c rn sbz rot imm8
  | .cmp => .cmpImm c rn sbz rot imm8
  | .cmn => .cmnImm c rn sbz rot imm8
  | .orr => .orrImm c sf rn rd rot imm8
  | .mov => .movImm c sf sbz rd rot imm8
  | .bic => .bicImm c sf rn rd rot imm8
  | .mvn => .mvnImm c sf sbz rd rot imm8

/-- The data-processing instruction of an operation with a register shifted by an immediate (R133). -/
def dpRsiInstr (op : DpOp) (c : Cond) (sf : Bool) (sbz : BitVec 4) (rn rd : Reg) (amt : BitVec 5) (sh : Shift)
    (rm : Reg) : Instr :=
  match op with
  | .and => .andRsi c sf rn rd amt sh rm
  | .eor => .eorRsi c sf rn rd amt sh rm
  | .sub => .subRsi c sf rn rd amt sh rm
  | .rsb => .rsbRsi c sf rn rd amt sh rm
  | .add => .addRsi c sf rn rd amt sh rm
  | .adc => .adcRsi c sf rn rd amt sh rm
  | .sbc => .sbcRsi c sf rn rd amt sh rm
  | .rsc => .rscRsi c sf rn rd amt sh rm
  | .tst => .tstRsi c rn sbz amt sh rm
  | .teq => .teqRsi c rn sbz amt sh rm
  | .cmp => .cmpRsi c rn sbz amt sh rm
  | .cmn => .cmnRsi c rn sbz amt sh rm
  | .orr => .orrRsi c sf rn rd amt sh rm
  | .mov => .movRsi c sf sbz rd amt sh rm
  | .bic => .bicRsi c sf rn rd amt sh rm
  | .mvn => .mvnRsi c sf sbz rd amt sh rm

/-- The data-processing instruction of an operation with a register shifted by a register (R134). -/
def dpRsrInstr (op : DpOp) (c : Cond) (sf : Bool) (sbz : BitVec 4) (rn rd rs : Reg) (sh : Shift) (rm : Reg) : Instr :=
  match op with
  | .and => .andRsr c sf rn rd rs sh rm
  | .eor => .eorRsr c sf rn rd rs sh rm
  | .sub => .subRsr c sf rn rd rs sh rm
  | .rsb => .rsbRsr c sf rn rd rs sh rm
  | .add => .addRsr c sf rn rd rs sh rm
  | .adc => .adcRsr c sf rn rd rs sh rm
  | .sbc => .sbcRsr c sf rn rd rs sh rm
  | .rsc => .rscRsr c sf rn rd rs sh rm
  | .tst => .tstRsr c rn sbz rs sh rm
  | .teq => .teqRsr c rn sbz rs sh rm
  | .cmp => .cmpRsr c rn sbz rs sh rm
  | .cmn => .cmnRsr c rn sbz rs sh rm
  | .orr => .orrRsr c sf rn rd rs sh rm
  | .mov => .movRsr c sf sbz rd rs sh rm
  | .bic => .bicRsr c sf rn rd rs sh rm
  | .mvn => .mvnRsr c sf sbz rd rs sh rm

/-- An operation that writes the flags: S = 1, or a compare or test (R213). -/
def setsFlags (op : DpOp) (sf : Bool) : Bool := sf || !op.writesRd

-- The state after an instruction

/-- `s` with the registers, the CPSR and the pc given, and the User-bank mark cleared (R611); nothing else changes. -/
def after (s : State) (gpr : Vector Word 30) (cpsr : Cpsr) (pc : Word) : State :=
  { s with gpr := gpr, cpsr := cpsr, pc := pc, lastUsrBank := false }

/-- The registers of `s` with `R<i>` of the current mode set, for i below 15 (R33). -/
def regsWith (s : State) (i : Reg) (v : Word) : Vector Word 30 := s.gpr.set (physReg s.cpsr.mode i) v

/-- The CPSR of `s` with N and Z of a value, and the given C and V (R51). -/
def flagsWith (s : State) (v : Word) (c o : Bool) : Cpsr :=
  { s.cpsr with n := v.getLsbD 31, z := v == 0, c := c, v := o }

/-- The state after a data-processing instruction that does not write R15 (R213). -/
def dpAfter (op : DpOp) (sf : Bool) (rd : Reg) (r : AluResult) (s : State) : State :=
  after s (if op.writesRd then regsWith s rd r.value else s.gpr)
    (if setsFlags op sf then flagsWith s r.value r.carry r.overflow else s.cpsr) (s.pc + 4)

-- The spec's arithmetic

/-- C of `a + b + c`: the exact unsigned sum does not fit in 32 bits (R17). -/
def carryOf (a b : Word) (c : Bool) : Bool := 2 ^ 32 ≤ a.toNat + b.toNat + c.toNat

/-- V of `a + b + c`: the exact signed sum is not the signed value of the 32-bit result (R17). -/
def overflowOf (a b : Word) (c : Bool) : Bool :=
  a.toInt + b.toInt + (c.toNat : Int) != (a + b + BitVec.ofNat 32 c.toNat).toInt

/-- NOT borrow of `a - b` with the carry in `c`: the exact unsigned difference, less 1 where `c` is clear, is not
negative (R215). -/
def noBorrow (a b : Word) (c : Bool) : Bool := b.toNat + (1 - c.toNat) ≤ a.toNat

/-- V of `a - b` with the carry in `c`: the exact signed difference is not the signed value of the result (R215). -/
def overflowSub (a b : Word) (c : Bool) : Bool :=
  a.toInt - b.toInt - (1 - (c.toNat : Int)) != (a - b - BitVec.ofNat 32 (1 - c.toNat)).toInt

-- Single transfers, the four accesses by their encoding

/-- LDR or LDRT with an immediate offset, the row that P and W select: P = 0 and W = 1 is the user-mode form (R144). -/
def ldrImmInstr (c : Cond) (p u w : Bool) (rn rd : Reg) (imm12 : BitVec 12) : Instr :=
  if p then .ldrImmPre c u w rn rd imm12 else if w then .ldrtImm c u rn rd imm12 else .ldrImmPost c u rn rd imm12

/-- LDR or LDRT with a scaled register offset (R144). -/
def ldrRegInstr (c : Cond) (p u w : Bool) (rn rd : Reg) (amt : BitVec 5) (sh : Shift) (rm : Reg) : Instr :=
  if p then .ldrRegPre c u w rn rd amt sh rm
  else if w then .ldrtReg c u rn rd amt sh rm else .ldrRegPost c u rn rd amt sh rm

/-- STR or STRT with an immediate offset, the row that P and W select: P = 0 and W = 1 is the user-mode form (R144). -/
def strImmInstr (c : Cond) (p u w : Bool) (rn rd : Reg) (imm12 : BitVec 12) : Instr :=
  if p then .strImmPre c u w rn rd imm12 else if w then .strtImm c u rn rd imm12 else .strImmPost c u rn rd imm12

/-- STR or STRT with a scaled register offset (R144). -/
def strRegInstr (c : Cond) (p u w : Bool) (rn rd : Reg) (amt : BitVec 5) (sh : Shift) (rm : Reg) : Instr :=
  if p then .strRegPre c u w rn rd amt sh rm
  else if w then .strtReg c u rn rd amt sh rm else .strRegPost c u rn rd amt sh rm

/-- LDRB or LDRBT with an immediate offset, the row that P and W select: P = 0 and W = 1 is the user-mode form (R144). -/
def ldrbImmInstr (c : Cond) (p u w : Bool) (rn rd : Reg) (imm12 : BitVec 12) : Instr :=
  if p then .ldrbImmPre c u w rn rd imm12 else if w then .ldrbtImm c u rn rd imm12 else .ldrbImmPost c u rn rd imm12

/-- LDRB or LDRBT with a scaled register offset (R144). -/
def ldrbRegInstr (c : Cond) (p u w : Bool) (rn rd : Reg) (amt : BitVec 5) (sh : Shift) (rm : Reg) : Instr :=
  if p then .ldrbRegPre c u w rn rd amt sh rm
  else if w then .ldrbtReg c u rn rd amt sh rm else .ldrbRegPost c u rn rd amt sh rm

/-- STRB or STRBT with an immediate offset, the row that P and W select: P = 0 and W = 1 is the user-mode form (R144). -/
def strbImmInstr (c : Cond) (p u w : Bool) (rn rd : Reg) (imm12 : BitVec 12) : Instr :=
  if p then .strbImmPre c u w rn rd imm12 else if w then .strbtImm c u rn rd imm12 else .strbImmPost c u rn rd imm12

/-- STRB or STRBT with a scaled register offset (R144). -/
def strbRegInstr (c : Cond) (p u w : Bool) (rn rd : Reg) (amt : BitVec 5) (sh : Shift) (rm : Reg) : Instr :=
  if p then .strbRegPre c u w rn rd amt sh rm
  else if w then .strbtReg c u rn rd amt sh rm else .strbRegPost c u rn rd amt sh rm

/-- The registers after a single load: the base where it is written back, then the destination (R300, R310). -/
def regsLoaded (s : State) (a : Address) (rn rd : Reg) (v : Word) : Vector Word 30 :=
  (if a.writeBack then regsWith s rn a.offsetAddr else s.gpr).set (physReg s.cpsr.mode rd) v

/-- The registers after a single store. -/
def regsStored (s : State) (a : Address) (rn : Reg) : Vector Word 30 :=
  if a.writeBack then regsWith s rn a.offsetAddr else s.gpr

-- Stores and block transfers

/-- A CPU store is not stopped: a strict machine finds no prefetch hazard (R612), and no DMA control register is left
with a field that UNPREDICTABLE covers (R541). -/
def StoreRuns (a : Word) (w : Width) (v : Word) (s : State) : Prop :=
  (s.strict = false ∨ hitsPrefetch a w s = false) ∧ dmaCaseOf a w (busWrite a w v s) = none

/-- The machine after words are stored at ascending aligned addresses (R320). -/
def storeWords (a : Word) (vs : List Word) (s : State) : State :=
  match vs with
  | [] => s
  | v :: rest => storeWords (a + 4) rest (busWrite (align4 a) .word v s)

/-- None of these stores is stopped. -/
def StoresRun (a : Word) (vs : List Word) (s : State) : Prop :=
  match vs with
  | [] => True
  | v :: rest => StoreRuns (align4 a) .word v s ∧ StoresRun (a + 4) rest (busWrite (align4 a) .word v s)

/-- The first of these stores that is stopped is stopped with `e`, once those before it are done. -/
def StoresStop (a : Word) (vs : List Word) (s : State) (e : Fault) : Prop :=
  ∃ (front : List Word) (v : Word) (back : List Word), vs = front ++ v :: back ∧ StoresRun a front s ∧
    cpuWrite (align4 (a + BitVec.ofNat 32 (4 * front.length))) .word v (storeWords a front s) = .error e

/-- The cells of `k` words stored at ascending aligned addresses (R320). -/
def blockCells (bus : Bus) (a : Word) (k : Nat) : List Nat :=
  match k with
  | 0 => []
  | k + 1 =>
    [cell bus (align4 a), cell bus (align4 a + 1), cell bus (align4 a + 2), cell bus (align4 a + 3)] ++
      blockCells bus (a + 4) k

/-- The registers of a mode after loaded words are written to them, R15 apart (R321). -/
def regsListed (m : Mode) (loaded : List (Reg × Word)) (g : Vector Word 30) : Vector Word 30 :=
  match loaded with
  | [] => g
  | (r, v) :: rest => regsListed m rest (if r = 15 then g else g.set (physReg m r) v)

/-- The registers PUSH stores (R467). -/
def pushRegs (r : Bool) (list : BitVec 8) : List Reg := thumbMoved (thumbList list (if r then some regLR else none))

/-- The lowest address PUSH stores to, and the new stack pointer (R467). -/
def pushBase (r : Bool) (list : BitVec 8) (s : State) : Word :=
  s.x regSP - thumbBlockSize (thumbList list (if r then some regLR else none))

/-- The 64-bit value of a long multiply, from exact integers (R262-R265). -/
def longProduct (signed accumulate : Bool) (s : State) (rdHi rdLo rs rm : Reg) : BitVec 64 :=
  (if signed then BitVec.ofInt 64 ((s.x rm).toInt * (s.x rs).toInt)
    else BitVec.ofNat 64 ((s.x rm).toNat * (s.x rs).toNat)) +
    (if accumulate then s.x rdHi ++ s.x rdLo else 0)

-- What an instruction may write

/-- The physical registers that numbers name in a mode, R15 apart (R33). -/
def named (m : Mode) (regs : List Reg) : List (Fin 30) := (regs.filter (fun r => r != 15)).map (physReg m)

/-- The base register, where it is written back. -/
def writtenBack (rn : Reg) (wb : Bool) : List Reg := if wb then [rn] else []

/-- The registers of the current mode that an instruction accesses: those it names as operands or moves, the stack pointer
and the link register where it uses them without naming them, and R14 where it raises an exception in the mode it is in
already.  That these are the accesses R611 speaks of is log entry 26. -/
def accesses (i : Instr) (s : State) : List Reg :=
  match i with
  | .andImm _ _ rn rd _ _ => [rn, rd]
  | .andRsi _ _ rn rd _ _ rm => [rn, rd, rm]
  | .andRsr _ _ rn rd rs _ rm => [rn, rd, rs, rm]
  | .eorImm _ _ rn rd _ _ => [rn, rd]
  | .eorRsi _ _ rn rd _ _ rm => [rn, rd, rm]
  | .eorRsr _ _ rn rd rs _ rm => [rn, rd, rs, rm]
  | .subImm _ _ rn rd _ _ => [rn, rd]
  | .subRsi _ _ rn rd _ _ rm => [rn, rd, rm]
  | .subRsr _ _ rn rd rs _ rm => [rn, rd, rs, rm]
  | .rsbImm _ _ rn rd _ _ => [rn, rd]
  | .rsbRsi _ _ rn rd _ _ rm => [rn, rd, rm]
  | .rsbRsr _ _ rn rd rs _ rm => [rn, rd, rs, rm]
  | .addImm _ _ rn rd _ _ => [rn, rd]
  | .addRsi _ _ rn rd _ _ rm => [rn, rd, rm]
  | .addRsr _ _ rn rd rs _ rm => [rn, rd, rs, rm]
  | .adcImm _ _ rn rd _ _ => [rn, rd]
  | .adcRsi _ _ rn rd _ _ rm => [rn, rd, rm]
  | .adcRsr _ _ rn rd rs _ rm => [rn, rd, rs, rm]
  | .sbcImm _ _ rn rd _ _ => [rn, rd]
  | .sbcRsi _ _ rn rd _ _ rm => [rn, rd, rm]
  | .sbcRsr _ _ rn rd rs _ rm => [rn, rd, rs, rm]
  | .rscImm _ _ rn rd _ _ => [rn, rd]
  | .rscRsi _ _ rn rd _ _ rm => [rn, rd, rm]
  | .rscRsr _ _ rn rd rs _ rm => [rn, rd, rs, rm]
  | .tstImm _ rn _ _ _ => [rn]
  | .tstRsi _ rn _ _ _ rm => [rn, rm]
  | .tstRsr _ rn _ rs _ rm => [rn, rs, rm]
  | .teqImm _ rn _ _ _ => [rn]
  | .teqRsi _ rn _ _ _ rm => [rn, rm]
  | .teqRsr _ rn _ rs _ rm => [rn, rs, rm]
  | .cmpImm _ rn _ _ _ => [rn]
  | .cmpRsi _ rn _ _ _ rm => [rn, rm]
  | .cmpRsr _ rn _ rs _ rm => [rn, rs, rm]
  | .cmnImm _ rn _ _ _ => [rn]
  | .cmnRsi _ rn _ _ _ rm => [rn, rm]
  | .cmnRsr _ rn _ rs _ rm => [rn, rs, rm]
  | .orrImm _ _ rn rd _ _ => [rn, rd]
  | .orrRsi _ _ rn rd _ _ rm => [rn, rd, rm]
  | .orrRsr _ _ rn rd rs _ rm => [rn, rd, rs, rm]
  | .movImm _ _ _ rd _ _ => [rd]
  | .movRsi _ _ _ rd _ _ rm => [rd, rm]
  | .movRsr _ _ _ rd rs _ rm => [rd, rs, rm]
  | .bicImm _ _ rn rd _ _ => [rn, rd]
  | .bicRsi _ _ rn rd _ _ rm => [rn, rd, rm]
  | .bicRsr _ _ rn rd rs _ rm => [rn, rd, rs, rm]
  | .mvnImm _ _ _ rd _ _ => [rd]
  | .mvnRsi _ _ _ rd _ _ rm => [rd, rm]
  | .mvnRsr _ _ _ rd rs _ rm => [rd, rs, rm]
  | .mul _ _ rd _ rs rm => [rd, rs, rm]
  | .mla _ _ rd rn rs rm => [rd, rn, rs, rm]
  | .umull _ _ rdHi rdLo rs rm => [rdHi, rdLo, rs, rm]
  | .umlal _ _ rdHi rdLo rs rm => [rdHi, rdLo, rs, rm]
  | .smull _ _ rdHi rdLo rs rm => [rdHi, rdLo, rs, rm]
  | .smlal _ _ rdHi rdLo rs rm => [rdHi, rdLo, rs, rm]
  | .mrs _ _ _ rd _ _ _ => [rd]
  | .msrReg _ _ _ _ _ _ rm => [rm]
  | .msrImm _ _ _ _ _ _ => []
  | .swp _ rn rd _ rm => [rn, rd, rm]
  | .swpb _ rn rd _ rm => [rn, rd, rm]
  | .bx _ _ rm => [rm]
  | .strhReg _ _ _ _ rn rd _ rm => [rn, rd, rm]
  | .strhImm _ _ _ _ rn rd _ _ => [rn, rd]
  | .ldrhReg _ _ _ _ rn rd _ rm => [rn, rd, rm]
  | .ldrhImm _ _ _ _ rn rd _ _ => [rn, rd]
  | .ldrsbReg _ _ _ _ rn rd _ rm => [rn, rd, rm]
  | .ldrsbImm _ _ _ _ rn rd _ _ => [rn, rd]
  | .ldrshReg _ _ _ _ rn rd _ rm => [rn, rd, rm]
  | .ldrshImm _ _ _ _ rn rd _ _ => [rn, rd]
  | .ldrImmPre _ _ _ rn rd _ => [rn, rd]
  | .ldrImmPost _ _ rn rd _ => [rn, rd]
  | .ldrRegPre _ _ _ rn rd _ _ rm => [rn, rd, rm]
  | .ldrRegPost _ _ rn rd _ _ rm => [rn, rd, rm]
  | .strImmPre _ _ _ rn rd _ => [rn, rd]
  | .strImmPost _ _ rn rd _ => [rn, rd]
  | .strRegPre _ _ _ rn rd _ _ rm => [rn, rd, rm]
  | .strRegPost _ _ rn rd _ _ rm => [rn, rd, rm]
  | .ldrbImmPre _ _ _ rn rd _ => [rn, rd]
  | .ldrbImmPost _ _ rn rd _ => [rn, rd]
  | .ldrbRegPre _ _ _ rn rd _ _ rm => [rn, rd, rm]
  | .ldrbRegPost _ _ rn rd _ _ rm => [rn, rd, rm]
  | .strbImmPre _ _ _ rn rd _ => [rn, rd]
  | .strbImmPost _ _ rn rd _ => [rn, rd]
  | .strbRegPre _ _ _ rn rd _ _ rm => [rn, rd, rm]
  | .strbRegPost _ _ rn rd _ _ rm => [rn, rd, rm]
  | .ldrtImm _ _ rn rd _ => [rn, rd]
  | .ldrtReg _ _ rn rd _ _ rm => [rn, rd, rm]
  | .strtImm _ _ rn rd _ => [rn, rd]
  | .strtReg _ _ rn rd _ _ rm => [rn, rd, rm]
  | .ldrbtImm _ _ rn rd _ => [rn, rd]
  | .ldrbtReg _ _ rn rd _ _ rm => [rn, rd, rm]
  | .strbtImm _ _ rn rd _ => [rn, rd]
  | .strbtReg _ _ rn rd _ _ rm => [rn, rd, rm]
  | .und _ _ _ => if s.cpsr.mode = .und then [14] else []
  | .ldm _ _ _ _ rn list => rn :: regList list
  | .stm _ _ _ _ rn list => rn :: regList list
  | .ldmUsr _ _ _ _ rn _ => [rn]
  | .ldmRet _ _ _ _ rn list => rn :: regList list
  | .stmUsr _ _ _ _ rn _ => [rn]
  | .b _ _ => []
  | .bl _ _ => [14]
  | .ldc _ _ _ _ _ _ _ _ _ => if s.params.cp = .undefined ∧ s.cpsr.mode = .und then [14] else []
  | .stc _ _ _ _ _ _ _ _ _ => if s.params.cp = .undefined ∧ s.cpsr.mode = .und then [14] else []
  | .cdp _ _ _ _ _ _ _ => if s.params.cp = .undefined ∧ s.cpsr.mode = .und then [14] else []
  | .mcr _ _ _ _ _ _ _ => if s.params.cp = .undefined ∧ s.cpsr.mode = .und then [14] else []
  | .mrc _ _ _ _ _ _ _ => if s.params.cp = .undefined ∧ s.cpsr.mode = .und then [14] else []
  | .swi _ _ => if s.cpsr.mode = .svc then [14] else []
  | .tLslImm _ rs rd => [low rs, low rd]
  | .tLsrImm _ rs rd => [low rs, low rd]
  | .tAsrImm _ rs rd => [low rs, low rd]
  | .tAddReg rn rs rd => [low rn, low rs, low rd]
  | .tSubReg rn rs rd => [low rn, low rs, low rd]
  | .tAddImm3 _ rs rd => [low rs, low rd]
  | .tSubImm3 _ rs rd => [low rs, low rd]
  | .tMovImm rd _ => [low rd]
  | .tCmpImm rd _ => [low rd]
  | .tAddImm8 rd _ => [low rd]
  | .tSubImm8 rd _ => [low rd]
  | .tAnd rs rd => [low rs, low rd]
  | .tEor rs rd => [low rs, low rd]
  | .tLslReg rs rd => [low rs, low rd]
  | .tLsrReg rs rd => [low rs, low rd]
  | .tAsrReg rs rd => [low rs, low rd]
  | .tAdc rs rd => [low rs, low rd]
  | .tSbc rs rd => [low rs, low rd]
  | .tRor rs rd => [low rs, low rd]
  | .tTst rs rd => [low rs, low rd]
  | .tNeg rs rd => [low rs, low rd]
  | .tCmpReg rs rd => [low rs, low rd]
  | .tCmn rs rd => [low rs, low rd]
  | .tOrr rs rd => [low rs, low rd]
  | .tMul rs rd => [low rs, low rd]
  | .tBic rs rd => [low rs, low rd]
  | .tMvn rs rd => [low rs, low rd]
  | .tAddHi h1 h2 rs rd => [high h1 rd, high h2 rs]
  | .tCmpHi h1 h2 rs rd => [high h1 rd, high h2 rs]
  | .tMovHi h1 h2 rs rd => [high h1 rd, high h2 rs]
  | .tBx _ h2 rs _ => [high h2 rs]
  | .tLdrPc rd _ => [low rd]
  | .tStrReg ro rb rd => [low ro, low rb, low rd]
  | .tStrbReg ro rb rd => [low ro, low rb, low rd]
  | .tLdrReg ro rb rd => [low ro, low rb, low rd]
  | .tLdrbReg ro rb rd => [low ro, low rb, low rd]
  | .tStrhReg ro rb rd => [low ro, low rb, low rd]
  | .tLdsb ro rb rd => [low ro, low rb, low rd]
  | .tLdrhReg ro rb rd => [low ro, low rb, low rd]
  | .tLdsh ro rb rd => [low ro, low rb, low rd]
  | .tStrImm _ rb rd => [low rb, low rd]
  | .tLdrImm _ rb rd => [low rb, low rd]
  | .tStrbImm _ rb rd => [low rb, low rd]
  | .tLdrbImm _ rb rd => [low rb, low rd]
  | .tStrhImm _ rb rd => [low rb, low rd]
  | .tLdrhImm _ rb rd => [low rb, low rd]
  | .tStrSp rd _ => [13, low rd]
  | .tLdrSp rd _ => [13, low rd]
  | .tAddPc rd _ => [low rd]
  | .tAddSp rd _ => [13, low rd]
  | .tAddSpImm _ _ => [13]
  | .tPush r list => 13 :: regList list ++ (if r then [14] else [])
  | .tPop r list => 13 :: regList list ++ (if r then [15] else [])
  | .tStmia rb list => low rb :: regList list
  | .tLdmia rb list => low rb :: regList list
  | .tBCond _ _ => []
  | .tSwi _ => if s.cpsr.mode = .svc then [14] else []
  | .tB _ => []
  | .tBlHi _ => [14]
  | .tBlLo _ => [14]

/-- The cells of memory an instruction stores to: none for an instruction that stores nothing. -/
def storesTo (i : Instr) (s : State) : List Nat :=
  match i with
  | .andImm _ _ _ _ _ _ => []
  | .andRsi _ _ _ _ _ _ _ => []
  | .andRsr _ _ _ _ _ _ _ => []
  | .eorImm _ _ _ _ _ _ => []
  | .eorRsi _ _ _ _ _ _ _ => []
  | .eorRsr _ _ _ _ _ _ _ => []
  | .subImm _ _ _ _ _ _ => []
  | .subRsi _ _ _ _ _ _ _ => []
  | .subRsr _ _ _ _ _ _ _ => []
  | .rsbImm _ _ _ _ _ _ => []
  | .rsbRsi _ _ _ _ _ _ _ => []
  | .rsbRsr _ _ _ _ _ _ _ => []
  | .addImm _ _ _ _ _ _ => []
  | .addRsi _ _ _ _ _ _ _ => []
  | .addRsr _ _ _ _ _ _ _ => []
  | .adcImm _ _ _ _ _ _ => []
  | .adcRsi _ _ _ _ _ _ _ => []
  | .adcRsr _ _ _ _ _ _ _ => []
  | .sbcImm _ _ _ _ _ _ => []
  | .sbcRsi _ _ _ _ _ _ _ => []
  | .sbcRsr _ _ _ _ _ _ _ => []
  | .rscImm _ _ _ _ _ _ => []
  | .rscRsi _ _ _ _ _ _ _ => []
  | .rscRsr _ _ _ _ _ _ _ => []
  | .tstImm _ _ _ _ _ => []
  | .tstRsi _ _ _ _ _ _ => []
  | .tstRsr _ _ _ _ _ _ => []
  | .teqImm _ _ _ _ _ => []
  | .teqRsi _ _ _ _ _ _ => []
  | .teqRsr _ _ _ _ _ _ => []
  | .cmpImm _ _ _ _ _ => []
  | .cmpRsi _ _ _ _ _ _ => []
  | .cmpRsr _ _ _ _ _ _ => []
  | .cmnImm _ _ _ _ _ => []
  | .cmnRsi _ _ _ _ _ _ => []
  | .cmnRsr _ _ _ _ _ _ => []
  | .orrImm _ _ _ _ _ _ => []
  | .orrRsi _ _ _ _ _ _ _ => []
  | .orrRsr _ _ _ _ _ _ _ => []
  | .movImm _ _ _ _ _ _ => []
  | .movRsi _ _ _ _ _ _ _ => []
  | .movRsr _ _ _ _ _ _ _ => []
  | .bicImm _ _ _ _ _ _ => []
  | .bicRsi _ _ _ _ _ _ _ => []
  | .bicRsr _ _ _ _ _ _ _ => []
  | .mvnImm _ _ _ _ _ _ => []
  | .mvnRsi _ _ _ _ _ _ _ => []
  | .mvnRsr _ _ _ _ _ _ _ => []
  | .mul _ _ _ _ _ _ => []
  | .mla _ _ _ _ _ _ => []
  | .umull _ _ _ _ _ _ => []
  | .umlal _ _ _ _ _ _ => []
  | .smull _ _ _ _ _ _ => []
  | .smlal _ _ _ _ _ _ => []
  | .mrs _ _ _ _ _ _ _ => []
  | .msrReg _ _ _ _ _ _ _ => []
  | .msrImm _ _ _ _ _ _ => []
  | .swp _ rn _ _ _ => storedCells (align4 (s.x rn)) .word s
  | .swpb _ rn _ _ _ => storedCells (s.x rn) .byte s
  | .bx _ _ _ => []
  | .strhReg _ p u w rn _ _ rm => storedCells (align2 (addressOf (s.armX rn) (s.armX rm) p u w).addr) .half s
  | .strhImm _ p u w rn _ immH immL => storedCells (align2 (addressOf (s.armX rn) (offsetHalf immH immL) p u w).addr) .half s
  | .ldrhReg _ _ _ _ _ _ _ _ => []
  | .ldrhImm _ _ _ _ _ _ _ _ => []
  | .ldrsbReg _ _ _ _ _ _ _ _ => []
  | .ldrsbImm _ _ _ _ _ _ _ _ => []
  | .ldrshReg _ _ _ _ _ _ _ _ => []
  | .ldrshImm _ _ _ _ _ _ _ _ => []
  | .ldrImmPre _ _ _ _ _ _ => []
  | .ldrImmPost _ _ _ _ _ => []
  | .ldrRegPre _ _ _ _ _ _ _ _ => []
  | .ldrRegPost _ _ _ _ _ _ _ => []
  | .strImmPre _ u w rn _ imm12 => storedCells (align4 (addressOf (s.armX rn) (offset12 imm12) true u w).addr) .word s
  | .strImmPost _ u rn _ imm12 => storedCells (align4 (addressOf (s.armX rn) (offset12 imm12) false u false).addr) .word s
  | .strRegPre _ u w rn _ amt sh rm => storedCells (align4 (addressOf (s.armX rn) (offsetReg s rm sh amt) true u w).addr) .word s
  | .strRegPost _ u rn _ amt sh rm => storedCells (align4 (addressOf (s.armX rn) (offsetReg s rm sh amt) false u false).addr) .word s
  | .ldrbImmPre _ _ _ _ _ _ => []
  | .ldrbImmPost _ _ _ _ _ => []
  | .ldrbRegPre _ _ _ _ _ _ _ _ => []
  | .ldrbRegPost _ _ _ _ _ _ _ => []
  | .strbImmPre _ u w rn _ imm12 => storedCells (addressOf (s.armX rn) (offset12 imm12) true u w).addr .byte s
  | .strbImmPost _ u rn _ imm12 => storedCells (addressOf (s.armX rn) (offset12 imm12) false u false).addr .byte s
  | .strbRegPre _ u w rn _ amt sh rm => storedCells (addressOf (s.armX rn) (offsetReg s rm sh amt) true u w).addr .byte s
  | .strbRegPost _ u rn _ amt sh rm => storedCells (addressOf (s.armX rn) (offsetReg s rm sh amt) false u false).addr .byte s
  | .ldrtImm _ _ _ _ _ => []
  | .ldrtReg _ _ _ _ _ _ _ => []
  | .strtImm _ u rn _ imm12 => storedCells (align4 (addressOf (s.armX rn) (offset12 imm12) false u false).addr) .word s
  | .strtReg _ u rn _ amt sh rm => storedCells (align4 (addressOf (s.armX rn) (offsetReg s rm sh amt) false u false).addr) .word s
  | .ldrbtImm _ _ _ _ _ => []
  | .ldrbtReg _ _ _ _ _ _ _ => []
  | .strbtImm _ u rn _ imm12 => storedCells (addressOf (s.armX rn) (offset12 imm12) false u false).addr .byte s
  | .strbtReg _ u rn _ amt sh rm => storedCells (addressOf (s.armX rn) (offsetReg s rm sh amt) false u false).addr .byte s
  | .und _ _ _ => []
  | .ldm _ _ _ _ _ _ => []
  | .stm _ p u _ rn list => blockCells s.bus (blockOf (s.x rn) p u list).start (blockOf (s.x rn) p u list).regs.length
  | .ldmUsr _ _ _ _ _ _ => []
  | .ldmRet _ _ _ _ _ _ => []
  | .stmUsr _ p u _ rn list => blockCells s.bus (blockOf (s.x rn) p u list).start (blockOf (s.x rn) p u list).regs.length
  | .b _ _ => []
  | .bl _ _ => []
  | .ldc _ _ _ _ _ _ _ _ _ => []
  | .stc _ _ _ _ _ _ _ _ _ => []
  | .cdp _ _ _ _ _ _ _ => []
  | .mcr _ _ _ _ _ _ _ => []
  | .mrc _ _ _ _ _ _ _ => []
  | .swi _ _ => []
  | .tLslImm _ _ _ => []
  | .tLsrImm _ _ _ => []
  | .tAsrImm _ _ _ => []
  | .tAddReg _ _ _ => []
  | .tSubReg _ _ _ => []
  | .tAddImm3 _ _ _ => []
  | .tSubImm3 _ _ _ => []
  | .tMovImm _ _ => []
  | .tCmpImm _ _ => []
  | .tAddImm8 _ _ => []
  | .tSubImm8 _ _ => []
  | .tAnd _ _ => []
  | .tEor _ _ => []
  | .tLslReg _ _ => []
  | .tLsrReg _ _ => []
  | .tAsrReg _ _ => []
  | .tAdc _ _ => []
  | .tSbc _ _ => []
  | .tRor _ _ => []
  | .tTst _ _ => []
  | .tNeg _ _ => []
  | .tCmpReg _ _ => []
  | .tCmn _ _ => []
  | .tOrr _ _ => []
  | .tMul _ _ => []
  | .tBic _ _ => []
  | .tMvn _ _ => []
  | .tAddHi _ _ _ _ => []
  | .tCmpHi _ _ _ _ => []
  | .tMovHi _ _ _ _ => []
  | .tBx _ _ _ _ => []
  | .tLdrPc _ _ => []
  | .tStrReg ro rb _ => storedCells (align4 (s.x (low rb) + s.x (low ro))) .word s
  | .tStrbReg ro rb _ => storedCells (s.x (low rb) + s.x (low ro)) .byte s
  | .tLdrReg _ _ _ => []
  | .tLdrbReg _ _ _ => []
  | .tStrhReg ro rb _ => storedCells (align2 (s.x (low rb) + s.x (low ro))) .half s
  | .tLdsb _ _ _ => []
  | .tLdrhReg _ _ _ => []
  | .tLdsh _ _ _ => []
  | .tStrImm off5 rb _ => storedCells (align4 (s.x (low rb) + scaled off5 2)) .word s
  | .tLdrImm _ _ _ => []
  | .tStrbImm off5 rb _ => storedCells (s.x (low rb) + scaled off5 0) .byte s
  | .tLdrbImm _ _ _ => []
  | .tStrhImm off5 rb _ => storedCells (align2 (s.x (low rb) + scaled off5 1)) .half s
  | .tLdrhImm _ _ _ => []
  | .tStrSp _ word8 => storedCells (align4 (s.x regSP + scaled word8 2)) .word s
  | .tLdrSp _ _ => []
  | .tAddPc _ _ => []
  | .tAddSp _ _ => []
  | .tAddSpImm _ _ => []
  | .tPush r list => blockCells s.bus (pushBase r list s) (pushRegs r list).length
  | .tPop _ _ => []
  | .tStmia rb list => blockCells s.bus (s.x (low rb)) (thumbMoved (thumbList list none)).length
  | .tLdmia _ _ => []
  | .tBCond _ _ => []
  | .tSwi _ => []
  | .tB _ => []
  | .tBlHi _ => []
  | .tBlLo _ => []

/-- The general registers an instruction writes, R14 of the entered mode for one that raises an exception. -/
def writesRegs (i : Instr) (s : State) : List (Fin 30) :=
  match i with
  | .andImm _ _ _ rd _ _ => named s.cpsr.mode [rd]
  | .andRsi _ _ _ rd _ _ _ => named s.cpsr.mode [rd]
  | .andRsr _ _ _ rd _ _ _ => named s.cpsr.mode [rd]
  | .eorImm _ _ _ rd _ _ => named s.cpsr.mode [rd]
  | .eorRsi _ _ _ rd _ _ _ => named s.cpsr.mode [rd]
  | .eorRsr _ _ _ rd _ _ _ => named s.cpsr.mode [rd]
  | .subImm _ _ _ rd _ _ => named s.cpsr.mode [rd]
  | .subRsi _ _ _ rd _ _ _ => named s.cpsr.mode [rd]
  | .subRsr _ _ _ rd _ _ _ => named s.cpsr.mode [rd]
  | .rsbImm _ _ _ rd _ _ => named s.cpsr.mode [rd]
  | .rsbRsi _ _ _ rd _ _ _ => named s.cpsr.mode [rd]
  | .rsbRsr _ _ _ rd _ _ _ => named s.cpsr.mode [rd]
  | .addImm _ _ _ rd _ _ => named s.cpsr.mode [rd]
  | .addRsi _ _ _ rd _ _ _ => named s.cpsr.mode [rd]
  | .addRsr _ _ _ rd _ _ _ => named s.cpsr.mode [rd]
  | .adcImm _ _ _ rd _ _ => named s.cpsr.mode [rd]
  | .adcRsi _ _ _ rd _ _ _ => named s.cpsr.mode [rd]
  | .adcRsr _ _ _ rd _ _ _ => named s.cpsr.mode [rd]
  | .sbcImm _ _ _ rd _ _ => named s.cpsr.mode [rd]
  | .sbcRsi _ _ _ rd _ _ _ => named s.cpsr.mode [rd]
  | .sbcRsr _ _ _ rd _ _ _ => named s.cpsr.mode [rd]
  | .rscImm _ _ _ rd _ _ => named s.cpsr.mode [rd]
  | .rscRsi _ _ _ rd _ _ _ => named s.cpsr.mode [rd]
  | .rscRsr _ _ _ rd _ _ _ => named s.cpsr.mode [rd]
  | .tstImm _ _ _ _ _ => []
  | .tstRsi _ _ _ _ _ _ => []
  | .tstRsr _ _ _ _ _ _ => []
  | .teqImm _ _ _ _ _ => []
  | .teqRsi _ _ _ _ _ _ => []
  | .teqRsr _ _ _ _ _ _ => []
  | .cmpImm _ _ _ _ _ => []
  | .cmpRsi _ _ _ _ _ _ => []
  | .cmpRsr _ _ _ _ _ _ => []
  | .cmnImm _ _ _ _ _ => []
  | .cmnRsi _ _ _ _ _ _ => []
  | .cmnRsr _ _ _ _ _ _ => []
  | .orrImm _ _ _ rd _ _ => named s.cpsr.mode [rd]
  | .orrRsi _ _ _ rd _ _ _ => named s.cpsr.mode [rd]
  | .orrRsr _ _ _ rd _ _ _ => named s.cpsr.mode [rd]
  | .movImm _ _ _ rd _ _ => named s.cpsr.mode [rd]
  | .movRsi _ _ _ rd _ _ _ => named s.cpsr.mode [rd]
  | .movRsr _ _ _ rd _ _ _ => named s.cpsr.mode [rd]
  | .bicImm _ _ _ rd _ _ => named s.cpsr.mode [rd]
  | .bicRsi _ _ _ rd _ _ _ => named s.cpsr.mode [rd]
  | .bicRsr _ _ _ rd _ _ _ => named s.cpsr.mode [rd]
  | .mvnImm _ _ _ rd _ _ => named s.cpsr.mode [rd]
  | .mvnRsi _ _ _ rd _ _ _ => named s.cpsr.mode [rd]
  | .mvnRsr _ _ _ rd _ _ _ => named s.cpsr.mode [rd]
  | .mul _ _ rd _ _ _ => named s.cpsr.mode [rd]
  | .mla _ _ rd _ _ _ => named s.cpsr.mode [rd]
  | .umull _ _ rdHi rdLo _ _ => named s.cpsr.mode [rdHi, rdLo]
  | .umlal _ _ rdHi rdLo _ _ => named s.cpsr.mode [rdHi, rdLo]
  | .smull _ _ rdHi rdLo _ _ => named s.cpsr.mode [rdHi, rdLo]
  | .smlal _ _ rdHi rdLo _ _ => named s.cpsr.mode [rdHi, rdLo]
  | .mrs _ _ _ rd _ _ _ => named s.cpsr.mode [rd]
  | .msrReg _ _ _ _ _ _ _ => []
  | .msrImm _ _ _ _ _ _ => []
  | .swp _ _ rd _ _ => named s.cpsr.mode [rd]
  | .swpb _ _ rd _ _ => named s.cpsr.mode [rd]
  | .bx _ _ _ => []
  | .strhReg _ p _ w rn _ _ _ => named s.cpsr.mode (writtenBack rn (!p || w))
  | .strhImm _ p _ w rn _ _ _ => named s.cpsr.mode (writtenBack rn (!p || w))
  | .ldrhReg _ p _ w rn rd _ _ => named s.cpsr.mode (writtenBack rn (!p || w) ++ [rd])
  | .ldrhImm _ p _ w rn rd _ _ => named s.cpsr.mode (writtenBack rn (!p || w) ++ [rd])
  | .ldrsbReg _ p _ w rn rd _ _ => named s.cpsr.mode (writtenBack rn (!p || w) ++ [rd])
  | .ldrsbImm _ p _ w rn rd _ _ => named s.cpsr.mode (writtenBack rn (!p || w) ++ [rd])
  | .ldrshReg _ p _ w rn rd _ _ => named s.cpsr.mode (writtenBack rn (!p || w) ++ [rd])
  | .ldrshImm _ p _ w rn rd _ _ => named s.cpsr.mode (writtenBack rn (!p || w) ++ [rd])
  | .ldrImmPre _ _ w rn rd _ => named s.cpsr.mode (writtenBack rn w ++ [rd])
  | .ldrImmPost _ _ rn rd _ => named s.cpsr.mode ([rn, rd])
  | .ldrRegPre _ _ w rn rd _ _ _ => named s.cpsr.mode (writtenBack rn w ++ [rd])
  | .ldrRegPost _ _ rn rd _ _ _ => named s.cpsr.mode ([rn, rd])
  | .strImmPre _ _ w rn _ _ => named s.cpsr.mode (writtenBack rn w)
  | .strImmPost _ _ rn _ _ => named s.cpsr.mode [rn]
  | .strRegPre _ _ w rn _ _ _ _ => named s.cpsr.mode (writtenBack rn w)
  | .strRegPost _ _ rn _ _ _ _ => named s.cpsr.mode [rn]
  | .ldrbImmPre _ _ w rn rd _ => named s.cpsr.mode (writtenBack rn w ++ [rd])
  | .ldrbImmPost _ _ rn rd _ => named s.cpsr.mode ([rn, rd])
  | .ldrbRegPre _ _ w rn rd _ _ _ => named s.cpsr.mode (writtenBack rn w ++ [rd])
  | .ldrbRegPost _ _ rn rd _ _ _ => named s.cpsr.mode ([rn, rd])
  | .strbImmPre _ _ w rn _ _ => named s.cpsr.mode (writtenBack rn w)
  | .strbImmPost _ _ rn _ _ => named s.cpsr.mode [rn]
  | .strbRegPre _ _ w rn _ _ _ _ => named s.cpsr.mode (writtenBack rn w)
  | .strbRegPost _ _ rn _ _ _ _ => named s.cpsr.mode [rn]
  | .ldrtImm _ _ rn rd _ => named s.cpsr.mode ([rn, rd])
  | .ldrtReg _ _ rn rd _ _ _ => named s.cpsr.mode ([rn, rd])
  | .strtImm _ _ rn _ _ => named s.cpsr.mode [rn]
  | .strtReg _ _ rn _ _ _ _ => named s.cpsr.mode [rn]
  | .ldrbtImm _ _ rn rd _ => named s.cpsr.mode ([rn, rd])
  | .ldrbtReg _ _ rn rd _ _ _ => named s.cpsr.mode ([rn, rd])
  | .strbtImm _ _ rn _ _ => named s.cpsr.mode [rn]
  | .strbtReg _ _ rn _ _ _ _ => named s.cpsr.mode [rn]
  | .und _ _ _ => named .und [regLR]
  | .ldm _ _ _ w rn list => named s.cpsr.mode (writtenBack rn w ++ regList list)
  | .stm _ _ _ w rn _ => named s.cpsr.mode (writtenBack rn w)
  | .ldmUsr _ _ _ _ _ list => named .usr (regList list)
  | .ldmRet _ _ _ w rn list => named s.cpsr.mode (writtenBack rn w ++ regList list)
  | .stmUsr _ _ _ _ _ _ => []
  | .b _ _ => []
  | .bl _ _ => named s.cpsr.mode [regLR]
  | .ldc _ _ _ _ _ _ _ _ _ => named .und [regLR]
  | .stc _ _ _ _ _ _ _ _ _ => named .und [regLR]
  | .cdp _ _ _ _ _ _ _ => named .und [regLR]
  | .mcr _ _ _ _ _ _ _ => named .und [regLR]
  | .mrc _ _ _ _ _ _ _ => named .und [regLR]
  | .swi _ _ => named .svc [regLR]
  | .tLslImm _ _ rd => named s.cpsr.mode [low rd]
  | .tLsrImm _ _ rd => named s.cpsr.mode [low rd]
  | .tAsrImm _ _ rd => named s.cpsr.mode [low rd]
  | .tAddReg _ _ rd => named s.cpsr.mode [low rd]
  | .tSubReg _ _ rd => named s.cpsr.mode [low rd]
  | .tAddImm3 _ _ rd => named s.cpsr.mode [low rd]
  | .tSubImm3 _ _ rd => named s.cpsr.mode [low rd]
  | .tMovImm rd _ => named s.cpsr.mode [low rd]
  | .tCmpImm _ _ => []
  | .tAddImm8 rd _ => named s.cpsr.mode [low rd]
  | .tSubImm8 rd _ => named s.cpsr.mode [low rd]
  | .tAnd _ rd => named s.cpsr.mode [low rd]
  | .tEor _ rd => named s.cpsr.mode [low rd]
  | .tLslReg _ rd => named s.cpsr.mode [low rd]
  | .tLsrReg _ rd => named s.cpsr.mode [low rd]
  | .tAsrReg _ rd => named s.cpsr.mode [low rd]
  | .tAdc _ rd => named s.cpsr.mode [low rd]
  | .tSbc _ rd => named s.cpsr.mode [low rd]
  | .tRor _ rd => named s.cpsr.mode [low rd]
  | .tTst _ _ => []
  | .tNeg _ rd => named s.cpsr.mode [low rd]
  | .tCmpReg _ _ => []
  | .tCmn _ _ => []
  | .tOrr _ rd => named s.cpsr.mode [low rd]
  | .tMul _ rd => named s.cpsr.mode [low rd]
  | .tBic _ rd => named s.cpsr.mode [low rd]
  | .tMvn _ rd => named s.cpsr.mode [low rd]
  | .tAddHi h1 _ _ rd => named s.cpsr.mode [high h1 rd]
  | .tCmpHi _ _ _ _ => []
  | .tMovHi h1 _ _ rd => named s.cpsr.mode [high h1 rd]
  | .tBx _ _ _ _ => []
  | .tLdrPc rd _ => named s.cpsr.mode [low rd]
  | .tStrReg _ _ _ => []
  | .tStrbReg _ _ _ => []
  | .tLdrReg _ _ rd => named s.cpsr.mode [low rd]
  | .tLdrbReg _ _ rd => named s.cpsr.mode [low rd]
  | .tStrhReg _ _ _ => []
  | .tLdsb _ _ rd => named s.cpsr.mode [low rd]
  | .tLdrhReg _ _ rd => named s.cpsr.mode [low rd]
  | .tLdsh _ _ rd => named s.cpsr.mode [low rd]
  | .tStrImm _ _ _ => []
  | .tLdrImm _ _ rd => named s.cpsr.mode [low rd]
  | .tStrbImm _ _ _ => []
  | .tLdrbImm _ _ rd => named s.cpsr.mode [low rd]
  | .tStrhImm _ _ _ => []
  | .tLdrhImm _ _ rd => named s.cpsr.mode [low rd]
  | .tStrSp _ _ => []
  | .tLdrSp rd _ => named s.cpsr.mode [low rd]
  | .tAddPc rd _ => named s.cpsr.mode [low rd]
  | .tAddSp rd _ => named s.cpsr.mode [low rd]
  | .tAddSpImm _ _ => named s.cpsr.mode [regSP]
  | .tPush _ _ => named s.cpsr.mode [regSP]
  | .tPop _ list => named s.cpsr.mode (regSP :: regList list)
  | .tStmia rb _ => named s.cpsr.mode [low rb]
  | .tLdmia rb list => named s.cpsr.mode (low rb :: regList list)
  | .tBCond _ _ => []
  | .tSwi _ => named .svc [regLR]
  | .tB _ => []
  | .tBlHi _ => named s.cpsr.mode [regLR]
  | .tBlLo _ => named s.cpsr.mode [regLR]

/-- The instruction writes nothing in the CPSR. -/
def keepsCpsr : Instr → Bool
  | .andImm _ sf _ _ _ _ => !sf
  | .andRsi _ sf _ _ _ _ _ => !sf
  | .andRsr _ sf _ _ _ _ _ => !sf
  | .eorImm _ sf _ _ _ _ => !sf
  | .eorRsi _ sf _ _ _ _ _ => !sf
  | .eorRsr _ sf _ _ _ _ _ => !sf
  | .subImm _ sf _ _ _ _ => !sf
  | .subRsi _ sf _ _ _ _ _ => !sf
  | .subRsr _ sf _ _ _ _ _ => !sf
  | .rsbImm _ sf _ _ _ _ => !sf
  | .rsbRsi _ sf _ _ _ _ _ => !sf
  | .rsbRsr _ sf _ _ _ _ _ => !sf
  | .addImm _ sf _ _ _ _ => !sf
  | .addRsi _ sf _ _ _ _ _ => !sf
  | .addRsr _ sf _ _ _ _ _ => !sf
  | .adcImm _ sf _ _ _ _ => !sf
  | .adcRsi _ sf _ _ _ _ _ => !sf
  | .adcRsr _ sf _ _ _ _ _ => !sf
  | .sbcImm _ sf _ _ _ _ => !sf
  | .sbcRsi _ sf _ _ _ _ _ => !sf
  | .sbcRsr _ sf _ _ _ _ _ => !sf
  | .rscImm _ sf _ _ _ _ => !sf
  | .rscRsi _ sf _ _ _ _ _ => !sf
  | .rscRsr _ sf _ _ _ _ _ => !sf
  | .tstImm _ _ _ _ _ => false
  | .tstRsi _ _ _ _ _ _ => false
  | .tstRsr _ _ _ _ _ _ => false
  | .teqImm _ _ _ _ _ => false
  | .teqRsi _ _ _ _ _ _ => false
  | .teqRsr _ _ _ _ _ _ => false
  | .cmpImm _ _ _ _ _ => false
  | .cmpRsi _ _ _ _ _ _ => false
  | .cmpRsr _ _ _ _ _ _ => false
  | .cmnImm _ _ _ _ _ => false
  | .cmnRsi _ _ _ _ _ _ => false
  | .cmnRsr _ _ _ _ _ _ => false
  | .orrImm _ sf _ _ _ _ => !sf
  | .orrRsi _ sf _ _ _ _ _ => !sf
  | .orrRsr _ sf _ _ _ _ _ => !sf
  | .movImm _ sf _ _ _ _ => !sf
  | .movRsi _ sf _ _ _ _ _ => !sf
  | .movRsr _ sf _ _ _ _ _ => !sf
  | .bicImm _ sf _ _ _ _ => !sf
  | .bicRsi _ sf _ _ _ _ _ => !sf
  | .bicRsr _ sf _ _ _ _ _ => !sf
  | .mvnImm _ sf _ _ _ _ => !sf
  | .mvnRsi _ sf _ _ _ _ _ => !sf
  | .mvnRsr _ sf _ _ _ _ _ => !sf
  | .mul _ sf _ _ _ _ => !sf
  | .mla _ sf _ _ _ _ => !sf
  | .umull _ sf _ _ _ _ => !sf
  | .umlal _ sf _ _ _ _ => !sf
  | .smull _ sf _ _ _ _ => !sf
  | .smlal _ sf _ _ _ _ => !sf
  | .mrs _ _ _ _ _ _ _ => true
  | .msrReg _ r _ _ _ _ _ => r
  | .msrImm _ r _ _ _ _ => r
  | .swp _ _ _ _ _ => true
  | .swpb _ _ _ _ _ => true
  | .bx _ _ _ => false
  | .strhReg _ _ _ _ _ _ _ _ => true
  | .strhImm _ _ _ _ _ _ _ _ => true
  | .ldrhReg _ _ _ _ _ _ _ _ => true
  | .ldrhImm _ _ _ _ _ _ _ _ => true
  | .ldrsbReg _ _ _ _ _ _ _ _ => true
  | .ldrsbImm _ _ _ _ _ _ _ _ => true
  | .ldrshReg _ _ _ _ _ _ _ _ => true
  | .ldrshImm _ _ _ _ _ _ _ _ => true
  | .ldrImmPre _ _ _ _ _ _ => true
  | .ldrImmPost _ _ _ _ _ => true
  | .ldrRegPre _ _ _ _ _ _ _ _ => true
  | .ldrRegPost _ _ _ _ _ _ _ => true
  | .strImmPre _ _ _ _ _ _ => true
  | .strImmPost _ _ _ _ _ => true
  | .strRegPre _ _ _ _ _ _ _ _ => true
  | .strRegPost _ _ _ _ _ _ _ => true
  | .ldrbImmPre _ _ _ _ _ _ => true
  | .ldrbImmPost _ _ _ _ _ => true
  | .ldrbRegPre _ _ _ _ _ _ _ _ => true
  | .ldrbRegPost _ _ _ _ _ _ _ => true
  | .strbImmPre _ _ _ _ _ _ => true
  | .strbImmPost _ _ _ _ _ => true
  | .strbRegPre _ _ _ _ _ _ _ _ => true
  | .strbRegPost _ _ _ _ _ _ _ => true
  | .ldrtImm _ _ _ _ _ => true
  | .ldrtReg _ _ _ _ _ _ _ => true
  | .strtImm _ _ _ _ _ => true
  | .strtReg _ _ _ _ _ _ _ => true
  | .ldrbtImm _ _ _ _ _ => true
  | .ldrbtReg _ _ _ _ _ _ _ => true
  | .strbtImm _ _ _ _ _ => true
  | .strbtReg _ _ _ _ _ _ _ => true
  | .und _ _ _ => false
  | .ldm _ _ _ _ _ _ => true
  | .stm _ _ _ _ _ _ => true
  | .ldmUsr _ _ _ _ _ _ => true
  | .ldmRet _ _ _ _ _ _ => false
  | .stmUsr _ _ _ _ _ _ => true
  | .b _ _ => true
  | .bl _ _ => true
  | .ldc _ _ _ _ _ _ _ _ _ => false
  | .stc _ _ _ _ _ _ _ _ _ => false
  | .cdp _ _ _ _ _ _ _ => false
  | .mcr _ _ _ _ _ _ _ => false
  | .mrc _ _ _ _ _ _ _ => false
  | .swi _ _ => false
  | .tLslImm _ _ _ => false
  | .tLsrImm _ _ _ => false
  | .tAsrImm _ _ _ => false
  | .tAddReg _ _ _ => false
  | .tSubReg _ _ _ => false
  | .tAddImm3 _ _ _ => false
  | .tSubImm3 _ _ _ => false
  | .tMovImm _ _ => false
  | .tCmpImm _ _ => false
  | .tAddImm8 _ _ => false
  | .tSubImm8 _ _ => false
  | .tAnd _ _ => false
  | .tEor _ _ => false
  | .tLslReg _ _ => false
  | .tLsrReg _ _ => false
  | .tAsrReg _ _ => false
  | .tAdc _ _ => false
  | .tSbc _ _ => false
  | .tRor _ _ => false
  | .tTst _ _ => false
  | .tNeg _ _ => false
  | .tCmpReg _ _ => false
  | .tCmn _ _ => false
  | .tOrr _ _ => false
  | .tMul _ _ => false
  | .tBic _ _ => false
  | .tMvn _ _ => false
  | .tAddHi _ _ _ _ => true
  | .tCmpHi _ _ _ _ => false
  | .tMovHi _ _ _ _ => true
  | .tBx _ _ _ _ => false
  | .tLdrPc _ _ => true
  | .tStrReg _ _ _ => true
  | .tStrbReg _ _ _ => true
  | .tLdrReg _ _ _ => true
  | .tLdrbReg _ _ _ => true
  | .tStrhReg _ _ _ => true
  | .tLdsb _ _ _ => true
  | .tLdrhReg _ _ _ => true
  | .tLdsh _ _ _ => true
  | .tStrImm _ _ _ => true
  | .tLdrImm _ _ _ => true
  | .tStrbImm _ _ _ => true
  | .tLdrbImm _ _ _ => true
  | .tStrhImm _ _ _ => true
  | .tLdrhImm _ _ _ => true
  | .tStrSp _ _ => true
  | .tLdrSp _ _ => true
  | .tAddPc _ _ => true
  | .tAddSp _ _ => true
  | .tAddSpImm _ _ => true
  | .tPush _ _ => true
  | .tPop _ _ => true
  | .tStmia _ _ => true
  | .tLdmia _ _ => true
  | .tBCond _ _ => true
  | .tSwi _ => false
  | .tB _ => true
  | .tBlHi _ => true
  | .tBlLo _ => true

/-- The instruction writes no mode, mask or T bit of the CPSR. -/
def keepsControl : Instr → Bool
  | .andImm _ sf _ rd _ _ => !(sf && rd == 15)
  | .andRsi _ sf _ rd _ _ _ => !(sf && rd == 15)
  | .andRsr _ sf _ rd _ _ _ => !(sf && rd == 15)
  | .eorImm _ sf _ rd _ _ => !(sf && rd == 15)
  | .eorRsi _ sf _ rd _ _ _ => !(sf && rd == 15)
  | .eorRsr _ sf _ rd _ _ _ => !(sf && rd == 15)
  | .subImm _ sf _ rd _ _ => !(sf && rd == 15)
  | .subRsi _ sf _ rd _ _ _ => !(sf && rd == 15)
  | .subRsr _ sf _ rd _ _ _ => !(sf && rd == 15)
  | .rsbImm _ sf _ rd _ _ => !(sf && rd == 15)
  | .rsbRsi _ sf _ rd _ _ _ => !(sf && rd == 15)
  | .rsbRsr _ sf _ rd _ _ _ => !(sf && rd == 15)
  | .addImm _ sf _ rd _ _ => !(sf && rd == 15)
  | .addRsi _ sf _ rd _ _ _ => !(sf && rd == 15)
  | .addRsr _ sf _ rd _ _ _ => !(sf && rd == 15)
  | .adcImm _ sf _ rd _ _ => !(sf && rd == 15)
  | .adcRsi _ sf _ rd _ _ _ => !(sf && rd == 15)
  | .adcRsr _ sf _ rd _ _ _ => !(sf && rd == 15)
  | .sbcImm _ sf _ rd _ _ => !(sf && rd == 15)
  | .sbcRsi _ sf _ rd _ _ _ => !(sf && rd == 15)
  | .sbcRsr _ sf _ rd _ _ _ => !(sf && rd == 15)
  | .rscImm _ sf _ rd _ _ => !(sf && rd == 15)
  | .rscRsi _ sf _ rd _ _ _ => !(sf && rd == 15)
  | .rscRsr _ sf _ rd _ _ _ => !(sf && rd == 15)
  | .tstImm _ _ _ _ _ => true
  | .tstRsi _ _ _ _ _ _ => true
  | .tstRsr _ _ _ _ _ _ => true
  | .teqImm _ _ _ _ _ => true
  | .teqRsi _ _ _ _ _ _ => true
  | .teqRsr _ _ _ _ _ _ => true
  | .cmpImm _ _ _ _ _ => true
  | .cmpRsi _ _ _ _ _ _ => true
  | .cmpRsr _ _ _ _ _ _ => true
  | .cmnImm _ _ _ _ _ => true
  | .cmnRsi _ _ _ _ _ _ => true
  | .cmnRsr _ _ _ _ _ _ => true
  | .orrImm _ sf _ rd _ _ => !(sf && rd == 15)
  | .orrRsi _ sf _ rd _ _ _ => !(sf && rd == 15)
  | .orrRsr _ sf _ rd _ _ _ => !(sf && rd == 15)
  | .movImm _ sf _ rd _ _ => !(sf && rd == 15)
  | .movRsi _ sf _ rd _ _ _ => !(sf && rd == 15)
  | .movRsr _ sf _ rd _ _ _ => !(sf && rd == 15)
  | .bicImm _ sf _ rd _ _ => !(sf && rd == 15)
  | .bicRsi _ sf _ rd _ _ _ => !(sf && rd == 15)
  | .bicRsr _ sf _ rd _ _ _ => !(sf && rd == 15)
  | .mvnImm _ sf _ rd _ _ => !(sf && rd == 15)
  | .mvnRsi _ sf _ rd _ _ _ => !(sf && rd == 15)
  | .mvnRsr _ sf _ rd _ _ _ => !(sf && rd == 15)
  | .mul _ _ _ _ _ _ => true
  | .mla _ _ _ _ _ _ => true
  | .umull _ _ _ _ _ _ => true
  | .umlal _ _ _ _ _ _ => true
  | .smull _ _ _ _ _ _ => true
  | .smlal _ _ _ _ _ _ => true
  | .mrs _ _ _ _ _ _ _ => true
  | .msrReg _ r _ _ _ _ _ => r
  | .msrImm _ r _ _ _ _ => r
  | .swp _ _ _ _ _ => true
  | .swpb _ _ _ _ _ => true
  | .bx _ _ _ => false
  | .strhReg _ _ _ _ _ _ _ _ => true
  | .strhImm _ _ _ _ _ _ _ _ => true
  | .ldrhReg _ _ _ _ _ _ _ _ => true
  | .ldrhImm _ _ _ _ _ _ _ _ => true
  | .ldrsbReg _ _ _ _ _ _ _ _ => true
  | .ldrsbImm _ _ _ _ _ _ _ _ => true
  | .ldrshReg _ _ _ _ _ _ _ _ => true
  | .ldrshImm _ _ _ _ _ _ _ _ => true
  | .ldrImmPre _ _ _ _ _ _ => true
  | .ldrImmPost _ _ _ _ _ => true
  | .ldrRegPre _ _ _ _ _ _ _ _ => true
  | .ldrRegPost _ _ _ _ _ _ _ => true
  | .strImmPre _ _ _ _ _ _ => true
  | .strImmPost _ _ _ _ _ => true
  | .strRegPre _ _ _ _ _ _ _ _ => true
  | .strRegPost _ _ _ _ _ _ _ => true
  | .ldrbImmPre _ _ _ _ _ _ => true
  | .ldrbImmPost _ _ _ _ _ => true
  | .ldrbRegPre _ _ _ _ _ _ _ _ => true
  | .ldrbRegPost _ _ _ _ _ _ _ => true
  | .strbImmPre _ _ _ _ _ _ => true
  | .strbImmPost _ _ _ _ _ => true
  | .strbRegPre _ _ _ _ _ _ _ _ => true
  | .strbRegPost _ _ _ _ _ _ _ => true
  | .ldrtImm _ _ _ _ _ => true
  | .ldrtReg _ _ _ _ _ _ _ => true
  | .strtImm _ _ _ _ _ => true
  | .strtReg _ _ _ _ _ _ _ => true
  | .ldrbtImm _ _ _ _ _ => true
  | .ldrbtReg _ _ _ _ _ _ _ => true
  | .strbtImm _ _ _ _ _ => true
  | .strbtReg _ _ _ _ _ _ _ => true
  | .und _ _ _ => false
  | .ldm _ _ _ _ _ _ => true
  | .stm _ _ _ _ _ _ => true
  | .ldmUsr _ _ _ _ _ _ => true
  | .ldmRet _ _ _ _ _ _ => false
  | .stmUsr _ _ _ _ _ _ => true
  | .b _ _ => true
  | .bl _ _ => true
  | .ldc _ _ _ _ _ _ _ _ _ => false
  | .stc _ _ _ _ _ _ _ _ _ => false
  | .cdp _ _ _ _ _ _ _ => false
  | .mcr _ _ _ _ _ _ _ => false
  | .mrc _ _ _ _ _ _ _ => false
  | .swi _ _ => false
  | .tLslImm _ _ _ => true
  | .tLsrImm _ _ _ => true
  | .tAsrImm _ _ _ => true
  | .tAddReg _ _ _ => true
  | .tSubReg _ _ _ => true
  | .tAddImm3 _ _ _ => true
  | .tSubImm3 _ _ _ => true
  | .tMovImm _ _ => true
  | .tCmpImm _ _ => true
  | .tAddImm8 _ _ => true
  | .tSubImm8 _ _ => true
  | .tAnd _ _ => true
  | .tEor _ _ => true
  | .tLslReg _ _ => true
  | .tLsrReg _ _ => true
  | .tAsrReg _ _ => true
  | .tAdc _ _ => true
  | .tSbc _ _ => true
  | .tRor _ _ => true
  | .tTst _ _ => true
  | .tNeg _ _ => true
  | .tCmpReg _ _ => true
  | .tCmn _ _ => true
  | .tOrr _ _ => true
  | .tMul _ _ => true
  | .tBic _ _ => true
  | .tMvn _ _ => true
  | .tAddHi _ _ _ _ => true
  | .tCmpHi _ _ _ _ => true
  | .tMovHi _ _ _ _ => true
  | .tBx _ _ _ _ => false
  | .tLdrPc _ _ => true
  | .tStrReg _ _ _ => true
  | .tStrbReg _ _ _ => true
  | .tLdrReg _ _ _ => true
  | .tLdrbReg _ _ _ => true
  | .tStrhReg _ _ _ => true
  | .tLdsb _ _ _ => true
  | .tLdrhReg _ _ _ => true
  | .tLdsh _ _ _ => true
  | .tStrImm _ _ _ => true
  | .tLdrImm _ _ _ => true
  | .tStrbImm _ _ _ => true
  | .tLdrbImm _ _ _ => true
  | .tStrhImm _ _ _ => true
  | .tLdrhImm _ _ _ => true
  | .tStrSp _ _ => true
  | .tLdrSp _ _ => true
  | .tAddPc _ _ => true
  | .tAddSp _ _ => true
  | .tAddSpImm _ _ => true
  | .tPush _ _ => true
  | .tPop _ _ => true
  | .tStmia _ _ => true
  | .tLdmia _ _ => true
  | .tBCond _ _ => true
  | .tSwi _ => false
  | .tB _ => true
  | .tBlHi _ => true
  | .tBlLo _ => true

/-- The instruction writes no saved status register. -/
def keepsSaved : Instr → Bool
  | .andImm _ _ _ _ _ _ => true
  | .andRsi _ _ _ _ _ _ _ => true
  | .andRsr _ _ _ _ _ _ _ => true
  | .eorImm _ _ _ _ _ _ => true
  | .eorRsi _ _ _ _ _ _ _ => true
  | .eorRsr _ _ _ _ _ _ _ => true
  | .subImm _ _ _ _ _ _ => true
  | .subRsi _ _ _ _ _ _ _ => true
  | .subRsr _ _ _ _ _ _ _ => true
  | .rsbImm _ _ _ _ _ _ => true
  | .rsbRsi _ _ _ _ _ _ _ => true
  | .rsbRsr _ _ _ _ _ _ _ => true
  | .addImm _ _ _ _ _ _ => true
  | .addRsi _ _ _ _ _ _ _ => true
  | .addRsr _ _ _ _ _ _ _ => true
  | .adcImm _ _ _ _ _ _ => true
  | .adcRsi _ _ _ _ _ _ _ => true
  | .adcRsr _ _ _ _ _ _ _ => true
  | .sbcImm _ _ _ _ _ _ => true
  | .sbcRsi _ _ _ _ _ _ _ => true
  | .sbcRsr _ _ _ _ _ _ _ => true
  | .rscImm _ _ _ _ _ _ => true
  | .rscRsi _ _ _ _ _ _ _ => true
  | .rscRsr _ _ _ _ _ _ _ => true
  | .tstImm _ _ _ _ _ => true
  | .tstRsi _ _ _ _ _ _ => true
  | .tstRsr _ _ _ _ _ _ => true
  | .teqImm _ _ _ _ _ => true
  | .teqRsi _ _ _ _ _ _ => true
  | .teqRsr _ _ _ _ _ _ => true
  | .cmpImm _ _ _ _ _ => true
  | .cmpRsi _ _ _ _ _ _ => true
  | .cmpRsr _ _ _ _ _ _ => true
  | .cmnImm _ _ _ _ _ => true
  | .cmnRsi _ _ _ _ _ _ => true
  | .cmnRsr _ _ _ _ _ _ => true
  | .orrImm _ _ _ _ _ _ => true
  | .orrRsi _ _ _ _ _ _ _ => true
  | .orrRsr _ _ _ _ _ _ _ => true
  | .movImm _ _ _ _ _ _ => true
  | .movRsi _ _ _ _ _ _ _ => true
  | .movRsr _ _ _ _ _ _ _ => true
  | .bicImm _ _ _ _ _ _ => true
  | .bicRsi _ _ _ _ _ _ _ => true
  | .bicRsr _ _ _ _ _ _ _ => true
  | .mvnImm _ _ _ _ _ _ => true
  | .mvnRsi _ _ _ _ _ _ _ => true
  | .mvnRsr _ _ _ _ _ _ _ => true
  | .mul _ _ _ _ _ _ => true
  | .mla _ _ _ _ _ _ => true
  | .umull _ _ _ _ _ _ => true
  | .umlal _ _ _ _ _ _ => true
  | .smull _ _ _ _ _ _ => true
  | .smlal _ _ _ _ _ _ => true
  | .mrs _ _ _ _ _ _ _ => true
  | .msrReg _ r _ _ _ _ _ => !r
  | .msrImm _ r _ _ _ _ => !r
  | .swp _ _ _ _ _ => true
  | .swpb _ _ _ _ _ => true
  | .bx _ _ _ => true
  | .strhReg _ _ _ _ _ _ _ _ => true
  | .strhImm _ _ _ _ _ _ _ _ => true
  | .ldrhReg _ _ _ _ _ _ _ _ => true
  | .ldrhImm _ _ _ _ _ _ _ _ => true
  | .ldrsbReg _ _ _ _ _ _ _ _ => true
  | .ldrsbImm _ _ _ _ _ _ _ _ => true
  | .ldrshReg _ _ _ _ _ _ _ _ => true
  | .ldrshImm _ _ _ _ _ _ _ _ => true
  | .ldrImmPre _ _ _ _ _ _ => true
  | .ldrImmPost _ _ _ _ _ => true
  | .ldrRegPre _ _ _ _ _ _ _ _ => true
  | .ldrRegPost _ _ _ _ _ _ _ => true
  | .strImmPre _ _ _ _ _ _ => true
  | .strImmPost _ _ _ _ _ => true
  | .strRegPre _ _ _ _ _ _ _ _ => true
  | .strRegPost _ _ _ _ _ _ _ => true
  | .ldrbImmPre _ _ _ _ _ _ => true
  | .ldrbImmPost _ _ _ _ _ => true
  | .ldrbRegPre _ _ _ _ _ _ _ _ => true
  | .ldrbRegPost _ _ _ _ _ _ _ => true
  | .strbImmPre _ _ _ _ _ _ => true
  | .strbImmPost _ _ _ _ _ => true
  | .strbRegPre _ _ _ _ _ _ _ _ => true
  | .strbRegPost _ _ _ _ _ _ _ => true
  | .ldrtImm _ _ _ _ _ => true
  | .ldrtReg _ _ _ _ _ _ _ => true
  | .strtImm _ _ _ _ _ => true
  | .strtReg _ _ _ _ _ _ _ => true
  | .ldrbtImm _ _ _ _ _ => true
  | .ldrbtReg _ _ _ _ _ _ _ => true
  | .strbtImm _ _ _ _ _ => true
  | .strbtReg _ _ _ _ _ _ _ => true
  | .und _ _ _ => false
  | .ldm _ _ _ _ _ _ => true
  | .stm _ _ _ _ _ _ => true
  | .ldmUsr _ _ _ _ _ _ => true
  | .ldmRet _ _ _ _ _ _ => true
  | .stmUsr _ _ _ _ _ _ => true
  | .b _ _ => true
  | .bl _ _ => true
  | .ldc _ _ _ _ _ _ _ _ _ => false
  | .stc _ _ _ _ _ _ _ _ _ => false
  | .cdp _ _ _ _ _ _ _ => false
  | .mcr _ _ _ _ _ _ _ => false
  | .mrc _ _ _ _ _ _ _ => false
  | .swi _ _ => false
  | .tLslImm _ _ _ => true
  | .tLsrImm _ _ _ => true
  | .tAsrImm _ _ _ => true
  | .tAddReg _ _ _ => true
  | .tSubReg _ _ _ => true
  | .tAddImm3 _ _ _ => true
  | .tSubImm3 _ _ _ => true
  | .tMovImm _ _ => true
  | .tCmpImm _ _ => true
  | .tAddImm8 _ _ => true
  | .tSubImm8 _ _ => true
  | .tAnd _ _ => true
  | .tEor _ _ => true
  | .tLslReg _ _ => true
  | .tLsrReg _ _ => true
  | .tAsrReg _ _ => true
  | .tAdc _ _ => true
  | .tSbc _ _ => true
  | .tRor _ _ => true
  | .tTst _ _ => true
  | .tNeg _ _ => true
  | .tCmpReg _ _ => true
  | .tCmn _ _ => true
  | .tOrr _ _ => true
  | .tMul _ _ => true
  | .tBic _ _ => true
  | .tMvn _ _ => true
  | .tAddHi _ _ _ _ => true
  | .tCmpHi _ _ _ _ => true
  | .tMovHi _ _ _ _ => true
  | .tBx _ _ _ _ => true
  | .tLdrPc _ _ => true
  | .tStrReg _ _ _ => true
  | .tStrbReg _ _ _ => true
  | .tLdrReg _ _ _ => true
  | .tLdrbReg _ _ _ => true
  | .tStrhReg _ _ _ => true
  | .tLdsb _ _ _ => true
  | .tLdrhReg _ _ _ => true
  | .tLdsh _ _ _ => true
  | .tStrImm _ _ _ => true
  | .tLdrImm _ _ _ => true
  | .tStrbImm _ _ _ => true
  | .tLdrbImm _ _ _ => true
  | .tStrhImm _ _ _ => true
  | .tLdrhImm _ _ _ => true
  | .tStrSp _ _ => true
  | .tLdrSp _ _ => true
  | .tAddPc _ _ => true
  | .tAddSp _ _ => true
  | .tAddSpImm _ _ => true
  | .tPush _ _ => true
  | .tPop _ _ => true
  | .tStmia _ _ => true
  | .tLdmia _ _ => true
  | .tBCond _ _ => true
  | .tSwi _ => false
  | .tB _ => true
  | .tBlHi _ => true
  | .tBlLo _ => true

/-- The instruction with its should-be-zero and should-be-one fields at their required values (R21). -/
def proper : Instr → Instr
  | .andImm c sf rn rd rot imm8 => .andImm c sf rn rd rot imm8
  | .andRsi c sf rn rd amt sh rm => .andRsi c sf rn rd amt sh rm
  | .andRsr c sf rn rd rs sh rm => .andRsr c sf rn rd rs sh rm
  | .eorImm c sf rn rd rot imm8 => .eorImm c sf rn rd rot imm8
  | .eorRsi c sf rn rd amt sh rm => .eorRsi c sf rn rd amt sh rm
  | .eorRsr c sf rn rd rs sh rm => .eorRsr c sf rn rd rs sh rm
  | .subImm c sf rn rd rot imm8 => .subImm c sf rn rd rot imm8
  | .subRsi c sf rn rd amt sh rm => .subRsi c sf rn rd amt sh rm
  | .subRsr c sf rn rd rs sh rm => .subRsr c sf rn rd rs sh rm
  | .rsbImm c sf rn rd rot imm8 => .rsbImm c sf rn rd rot imm8
  | .rsbRsi c sf rn rd amt sh rm => .rsbRsi c sf rn rd amt sh rm
  | .rsbRsr c sf rn rd rs sh rm => .rsbRsr c sf rn rd rs sh rm
  | .addImm c sf rn rd rot imm8 => .addImm c sf rn rd rot imm8
  | .addRsi c sf rn rd amt sh rm => .addRsi c sf rn rd amt sh rm
  | .addRsr c sf rn rd rs sh rm => .addRsr c sf rn rd rs sh rm
  | .adcImm c sf rn rd rot imm8 => .adcImm c sf rn rd rot imm8
  | .adcRsi c sf rn rd amt sh rm => .adcRsi c sf rn rd amt sh rm
  | .adcRsr c sf rn rd rs sh rm => .adcRsr c sf rn rd rs sh rm
  | .sbcImm c sf rn rd rot imm8 => .sbcImm c sf rn rd rot imm8
  | .sbcRsi c sf rn rd amt sh rm => .sbcRsi c sf rn rd amt sh rm
  | .sbcRsr c sf rn rd rs sh rm => .sbcRsr c sf rn rd rs sh rm
  | .rscImm c sf rn rd rot imm8 => .rscImm c sf rn rd rot imm8
  | .rscRsi c sf rn rd amt sh rm => .rscRsi c sf rn rd amt sh rm
  | .rscRsr c sf rn rd rs sh rm => .rscRsr c sf rn rd rs sh rm
  | .tstImm c rn _ rot imm8 => .tstImm c rn 0 rot imm8
  | .tstRsi c rn _ amt sh rm => .tstRsi c rn 0 amt sh rm
  | .tstRsr c rn _ rs sh rm => .tstRsr c rn 0 rs sh rm
  | .teqImm c rn _ rot imm8 => .teqImm c rn 0 rot imm8
  | .teqRsi c rn _ amt sh rm => .teqRsi c rn 0 amt sh rm
  | .teqRsr c rn _ rs sh rm => .teqRsr c rn 0 rs sh rm
  | .cmpImm c rn _ rot imm8 => .cmpImm c rn 0 rot imm8
  | .cmpRsi c rn _ amt sh rm => .cmpRsi c rn 0 amt sh rm
  | .cmpRsr c rn _ rs sh rm => .cmpRsr c rn 0 rs sh rm
  | .cmnImm c rn _ rot imm8 => .cmnImm c rn 0 rot imm8
  | .cmnRsi c rn _ amt sh rm => .cmnRsi c rn 0 amt sh rm
  | .cmnRsr c rn _ rs sh rm => .cmnRsr c rn 0 rs sh rm
  | .orrImm c sf rn rd rot imm8 => .orrImm c sf rn rd rot imm8
  | .orrRsi c sf rn rd amt sh rm => .orrRsi c sf rn rd amt sh rm
  | .orrRsr c sf rn rd rs sh rm => .orrRsr c sf rn rd rs sh rm
  | .movImm c sf _ rd rot imm8 => .movImm c sf 0 rd rot imm8
  | .movRsi c sf _ rd amt sh rm => .movRsi c sf 0 rd amt sh rm
  | .movRsr c sf _ rd rs sh rm => .movRsr c sf 0 rd rs sh rm
  | .bicImm c sf rn rd rot imm8 => .bicImm c sf rn rd rot imm8
  | .bicRsi c sf rn rd amt sh rm => .bicRsi c sf rn rd amt sh rm
  | .bicRsr c sf rn rd rs sh rm => .bicRsr c sf rn rd rs sh rm
  | .mvnImm c sf _ rd rot imm8 => .mvnImm c sf 0 rd rot imm8
  | .mvnRsi c sf _ rd amt sh rm => .mvnRsi c sf 0 rd amt sh rm
  | .mvnRsr c sf _ rd rs sh rm => .mvnRsr c sf 0 rd rs sh rm
  | .mul c sf rd _ rs rm => .mul c sf rd 0 rs rm
  | .mla c sf rd rn rs rm => .mla c sf rd rn rs rm
  | .umull c sf rdHi rdLo rs rm => .umull c sf rdHi rdLo rs rm
  | .umlal c sf rdHi rdLo rs rm => .umlal c sf rdHi rdLo rs rm
  | .smull c sf rdHi rdLo rs rm => .smull c sf rdHi rdLo rs rm
  | .smlal c sf rdHi rdLo rs rm => .smlal c sf rdHi rdLo rs rm
  | .mrs c r _ rd _ _ _ => .mrs c r (BitVec.allOnes 4) rd 0 0 0
  | .msrReg c r mask _ _ _ rm => .msrReg c r mask (BitVec.allOnes 4) 0 0 rm
  | .msrImm c r mask _ rot imm8 => .msrImm c r mask (BitVec.allOnes 4) rot imm8
  | .swp c rn rd _ rm => .swp c rn rd 0 rm
  | .swpb c rn rd _ rm => .swpb c rn rd 0 rm
  | .bx c _ rm => .bx c (BitVec.allOnes 12) rm
  | .strhReg c p u w rn rd _ rm => .strhReg c p u w rn rd 0 rm
  | .strhImm c p u w rn rd immH immL => .strhImm c p u w rn rd immH immL
  | .ldrhReg c p u w rn rd _ rm => .ldrhReg c p u w rn rd 0 rm
  | .ldrhImm c p u w rn rd immH immL => .ldrhImm c p u w rn rd immH immL
  | .ldrsbReg c p u w rn rd _ rm => .ldrsbReg c p u w rn rd 0 rm
  | .ldrsbImm c p u w rn rd immH immL => .ldrsbImm c p u w rn rd immH immL
  | .ldrshReg c p u w rn rd _ rm => .ldrshReg c p u w rn rd 0 rm
  | .ldrshImm c p u w rn rd immH immL => .ldrshImm c p u w rn rd immH immL
  | .ldrImmPre c u w rn rd imm12 => .ldrImmPre c u w rn rd imm12
  | .ldrImmPost c u rn rd imm12 => .ldrImmPost c u rn rd imm12
  | .ldrRegPre c u w rn rd amt sh rm => .ldrRegPre c u w rn rd amt sh rm
  | .ldrRegPost c u rn rd amt sh rm => .ldrRegPost c u rn rd amt sh rm
  | .strImmPre c u w rn rd imm12 => .strImmPre c u w rn rd imm12
  | .strImmPost c u rn rd imm12 => .strImmPost c u rn rd imm12
  | .strRegPre c u w rn rd amt sh rm => .strRegPre c u w rn rd amt sh rm
  | .strRegPost c u rn rd amt sh rm => .strRegPost c u rn rd amt sh rm
  | .ldrbImmPre c u w rn rd imm12 => .ldrbImmPre c u w rn rd imm12
  | .ldrbImmPost c u rn rd imm12 => .ldrbImmPost c u rn rd imm12
  | .ldrbRegPre c u w rn rd amt sh rm => .ldrbRegPre c u w rn rd amt sh rm
  | .ldrbRegPost c u rn rd amt sh rm => .ldrbRegPost c u rn rd amt sh rm
  | .strbImmPre c u w rn rd imm12 => .strbImmPre c u w rn rd imm12
  | .strbImmPost c u rn rd imm12 => .strbImmPost c u rn rd imm12
  | .strbRegPre c u w rn rd amt sh rm => .strbRegPre c u w rn rd amt sh rm
  | .strbRegPost c u rn rd amt sh rm => .strbRegPost c u rn rd amt sh rm
  | .ldrtImm c u rn rd imm12 => .ldrtImm c u rn rd imm12
  | .ldrtReg c u rn rd amt sh rm => .ldrtReg c u rn rd amt sh rm
  | .strtImm c u rn rd imm12 => .strtImm c u rn rd imm12
  | .strtReg c u rn rd amt sh rm => .strtReg c u rn rd amt sh rm
  | .ldrbtImm c u rn rd imm12 => .ldrbtImm c u rn rd imm12
  | .ldrbtReg c u rn rd amt sh rm => .ldrbtReg c u rn rd amt sh rm
  | .strbtImm c u rn rd imm12 => .strbtImm c u rn rd imm12
  | .strbtReg c u rn rd amt sh rm => .strbtReg c u rn rd amt sh rm
  | .und c hi lo => .und c hi lo
  | .ldm c p u w rn list => .ldm c p u w rn list
  | .stm c p u w rn list => .stm c p u w rn list
  | .ldmUsr c p u w rn list => .ldmUsr c p u w rn list
  | .ldmRet c p u w rn list => .ldmRet c p u w rn list
  | .stmUsr c p u w rn list => .stmUsr c p u w rn list
  | .b c off => .b c off
  | .bl c off => .bl c off
  | .ldc c p u n w rn crd cp off8 => .ldc c p u n w rn crd cp off8
  | .stc c p u n w rn crd cp off8 => .stc c p u n w rn crd cp off8
  | .cdp c op1 crn crd cp op2 crm => .cdp c op1 crn crd cp op2 crm
  | .mcr c op1 crn rd cp op2 crm => .mcr c op1 crn rd cp op2 crm
  | .mrc c op1 crn rd cp op2 crm => .mrc c op1 crn rd cp op2 crm
  | .swi c comment => .swi c comment
  | .tLslImm off5 rs rd => .tLslImm off5 rs rd
  | .tLsrImm off5 rs rd => .tLsrImm off5 rs rd
  | .tAsrImm off5 rs rd => .tAsrImm off5 rs rd
  | .tAddReg rn rs rd => .tAddReg rn rs rd
  | .tSubReg rn rs rd => .tSubReg rn rs rd
  | .tAddImm3 imm3 rs rd => .tAddImm3 imm3 rs rd
  | .tSubImm3 imm3 rs rd => .tSubImm3 imm3 rs rd
  | .tMovImm rd imm8 => .tMovImm rd imm8
  | .tCmpImm rd imm8 => .tCmpImm rd imm8
  | .tAddImm8 rd imm8 => .tAddImm8 rd imm8
  | .tSubImm8 rd imm8 => .tSubImm8 rd imm8
  | .tAnd rs rd => .tAnd rs rd
  | .tEor rs rd => .tEor rs rd
  | .tLslReg rs rd => .tLslReg rs rd
  | .tLsrReg rs rd => .tLsrReg rs rd
  | .tAsrReg rs rd => .tAsrReg rs rd
  | .tAdc rs rd => .tAdc rs rd
  | .tSbc rs rd => .tSbc rs rd
  | .tRor rs rd => .tRor rs rd
  | .tTst rs rd => .tTst rs rd
  | .tNeg rs rd => .tNeg rs rd
  | .tCmpReg rs rd => .tCmpReg rs rd
  | .tCmn rs rd => .tCmn rs rd
  | .tOrr rs rd => .tOrr rs rd
  | .tMul rs rd => .tMul rs rd
  | .tBic rs rd => .tBic rs rd
  | .tMvn rs rd => .tMvn rs rd
  | .tAddHi h1 h2 rs rd => .tAddHi h1 h2 rs rd
  | .tCmpHi h1 h2 rs rd => .tCmpHi h1 h2 rs rd
  | .tMovHi h1 h2 rs rd => .tMovHi h1 h2 rs rd
  | .tBx _ h2 rs _ => .tBx 0 h2 rs 0
  | .tLdrPc rd word8 => .tLdrPc rd word8
  | .tStrReg ro rb rd => .tStrReg ro rb rd
  | .tStrbReg ro rb rd => .tStrbReg ro rb rd
  | .tLdrReg ro rb rd => .tLdrReg ro rb rd
  | .tLdrbReg ro rb rd => .tLdrbReg ro rb rd
  | .tStrhReg ro rb rd => .tStrhReg ro rb rd
  | .tLdsb ro rb rd => .tLdsb ro rb rd
  | .tLdrhReg ro rb rd => .tLdrhReg ro rb rd
  | .tLdsh ro rb rd => .tLdsh ro rb rd
  | .tStrImm off5 rb rd => .tStrImm off5 rb rd
  | .tLdrImm off5 rb rd => .tLdrImm off5 rb rd
  | .tStrbImm off5 rb rd => .tStrbImm off5 rb rd
  | .tLdrbImm off5 rb rd => .tLdrbImm off5 rb rd
  | .tStrhImm off5 rb rd => .tStrhImm off5 rb rd
  | .tLdrhImm off5 rb rd => .tLdrhImm off5 rb rd
  | .tStrSp rd word8 => .tStrSp rd word8
  | .tLdrSp rd word8 => .tLdrSp rd word8
  | .tAddPc rd word8 => .tAddPc rd word8
  | .tAddSp rd word8 => .tAddSp rd word8
  | .tAddSpImm sf sword7 => .tAddSpImm sf sword7
  | .tPush r list => .tPush r list
  | .tPop r list => .tPop r list
  | .tStmia rb list => .tStmia rb list
  | .tLdmia rb list => .tLdmia rb list
  | .tBCond cond soff8 => .tBCond cond soff8
  | .tSwi value8 => .tSwi value8
  | .tB off11 => .tB off11
  | .tBlHi off11 => .tBlHi off11
  | .tBlLo off11 => .tBlLo off11

-- Thumb results, banks and plain memory

/-- The state after a Thumb instruction that writes a low register (R400). -/
def thumbAfter (s : State) (rd : LowReg) (v : Word) (cpsr : Cpsr) : State :=
  after s (regsWith s (low rd) v) cpsr (s.pc + 2)

/-- The mode whose own register `R<i>` is in a mode: the User column stands for all that is shared (R33). -/
def bankOf (m : Mode) (i : Reg) : Mode :=
  match m with
  | .usr | .sys => .usr
  | .fiq => if 8 ≤ i.toNat then .fiq else .usr
  | .irq | .svc | .abt | .und => if 13 ≤ i.toNat then m else .usr

/-- The regions that read and write as RAM (R88, R89). -/
def isRam (r : Region) : Bool :=
  match r with
  | .ewram | .iwram | .palette | .vram | .oam => true
  | .bios | .io | .rom | .save | .unmapped => false

/-- The byte that memory holds for an address (R88). -/
def byteAt (s : State) (a : Word) : Byte := s.mem.read (cell s.bus a)

/-- The value of a width that memory holds at an address, zero-extended, little-endian (R82). -/
def valueAt (s : State) (w : Width) (a : Word) : Word :=
  match w with
  | .byte => (byteAt s a).zeroExtend 32
  | .half => (byteAt s (a + 1) ++ byteAt s a).zeroExtend 32
  | .word => byteAt s (a + 3) ++ byteAt s (a + 2) ++ byteAt s (a + 1) ++ byteAt s a

/-- The value of `n` free bytes, the first taken lowest (R82, R86). -/
def freeBytes (s : State) (n : Nat) : Word :=
  match n with
  | 0 => 0
  | k + 1 => freeBytes s k ||| (Config.freeByte (s.draws + k)).zeroExtend 32 <<< (8 * k)

-- Devices

/-- The cycles of a timer's prescaler are full in the coming cycle (R535, R536). -/
def Timer.periodEnds (t : Timer) : Bool := [1, 64, 256, 1024].getD t.prescaler.toNat 1 ≤ t.count + 1

/-- Timer `n` adds 1 in the coming cycle: it is started, and its prescaler period ends or, where it cascades, the timer
before it overflows (R536, R538). -/
def timerTicks (d : Devices) (n : Nat) : Bool :=
  let t := d.timers[Fin.ofNat 4 n]
  match n with
  | 0 => t.enable && t.periodEnds
  | m + 1 =>
    t.enable && if t.cascade then timerTicks d m && d.timers[Fin.ofNat 4 m].counter == 0xFFFF else t.periodEnds

-- Invariants

/-- The pc is aligned for the instruction set that `CPSR.T` names (R40, R45). -/
def PcAligned (s : State) : Prop := alignFor s.cpsr.t s.pc = s.pc

/-- The bytes of storage a region has (R88). -/
def regionSize (r : Region) : Nat :=
  match r with
  | .bios => 0x4000
  | .ewram => 0x40000
  | .iwram => 0x8000
  | .io => 0x400
  | .palette => 0x400
  | .vram => 0x18000
  | .oam => 0x400
  | .rom => 0x2000000
  | .save => 0
  | .unmapped => 0

/-- Every byte of memory lies in the storage of a region (R88): no mirror of it is held. -/
def CellsStored (m : Memory) : Prop := ∀ c ∈ m, ∃ r : Region, ∃ k < regionSize r, c.1 = regionBase r + k

/-- Neither FIFO holds more than 32 bytes (R560). -/
def FifosBounded (d : Devices) : Prop := d.fifoA.bytes.length ≤ 32 ∧ d.fifoB.bytes.length ≤ 32

/-- A channel that is due is armed, and the unused bits of every control register read 0 (R540, R542). -/
def DmaSound (d : Devices) : Prop :=
  ∀ n : Fin 4, (d.dma[n].due = true → d.dma[n].armed = true) ∧ d.dma[n].ctl &&& ~~~dmaCtlMask n = 0

/-- The invariant of the machine. -/
structure Inv (s : State) : Prop where
  pc : PcAligned s
  mem : s.mem.wf
  cells : CellsStored s.mem
  fifos : FifosBounded s.dev
  dma : DmaSound s.dev

end Sys2Proof.Machine
end

