-- ==== Sys2Proof/Certificates/Slice0/Obligations.lean ====
section
/-!
DEFINITION. The statements for the provers.  Each docstring names the rules of spec/ that its statement formalises; where
a clause rests on a choice of the model, it names the log entry.
-/

open Sys2Proof Sys2Proof.Machine

-- Encoding and decoding

/-- Decoding the word of a well-formed instruction gives the instruction back, with every operand (30_encoding.md:
formats A1 to A21 and T1 to T19; R150, R160). -/
def Obligations.EncodedInstructionDecodes : Prop :=
  ∀ i : Instr, i.WellFormed → decode (encode i) = .ok i

/-- An instruction read from a word, should-be-zero and should-be-one fields among it, encodes as that word: the
decoder drops no bit (R21, R150). -/
def Obligations.DecodedWordEncodesBack : Prop :=
  ∀ (code : Code) (i : Instr), decode code = .ok i → encode i = code

/-- R150: at most one row matches a word; a word that matches a row is that row's instruction, whatever the order of the
rows; a word that matches none is rejected. -/
def Obligations.OneRowPerWord : Prop :=
  (∀ w : BitVec 32, ∀ r ∈ armRows, ∀ q ∈ armRows, r.matches w = true → q.matches w = true → r = q) ∧
  (∀ h : BitVec 16, ∀ r ∈ thumbRows, ∀ q ∈ thumbRows, r.matches h = true → q.matches h = true → r = q) ∧
  (∀ w : BitVec 32, ∀ r ∈ armRows, r.matches w = true → decode (.arm w) = .ok (r.build w)) ∧
  (∀ h : BitVec 16, ∀ r ∈ thumbRows, r.matches h = true → decode (.thumb h) = .ok (r.build h)) ∧
  (∀ w : BitVec 32, (∀ r ∈ armRows, r.matches w = false) → decode (.arm w) = .error (.unallocatedArm w)) ∧
  (∀ h : BitVec 16, (∀ r ∈ thumbRows, r.matches h = false) → decode (.thumb h) = .error (.unallocatedThumb h))

/-- R171: the Thumb halfwords of no row are exactly these.  R170 (b) to (e): the ARM words of no row are exactly these; (a),
the space of bits 27:25 = 011 with bit 4 = 1, is the table's row `UND`. -/
def Obligations.UnallocatedEncodings : Prop :=
  (∀ h : BitVec 16, decode (.thumb h) = .error (.unallocatedThumb h) ↔
    (h.extractLsb' 12 4 = 0b1011#4 ∧ (h.extractLsb' 8 4) ∈ [1#4, 2, 3, 6, 7, 8, 9, 10, 11, 14, 15]) ∨
      h.extractLsb' 8 8 = 0xDE#8 ∨ h.extractLsb' 11 5 = 0b11101#5) ∧
  (∀ w : BitVec 32, decode (.arm w) = .error (.unallocatedArm w) ↔
    (w.extractLsb' 23 5 = 0b00010#5 ∧ w.getLsbD 20 = false ∧
      (w.getLsbD 7 = true ∧ w.getLsbD 4 = false ∨
        w.getLsbD 7 = false ∧ w.getLsbD 4 = true ∧
          ¬(w.extractLsb' 21 2 = 0b01#2 ∧ w.extractLsb' 4 4 = 0b0001#4))) ∨
    (w.extractLsb' 23 5 = 0b00110#5 ∧ w.extractLsb' 20 2 = 0b00#2) ∨
    (w.extractLsb' 25 3 = 0b000#3 ∧ w.extractLsb' 4 4 = 0b1001#4 ∧ w.extractLsb' 22 6 ≠ 0b000000#6 ∧
      w.extractLsb' 23 5 ≠ 0b00001#5 ∧ ¬(w.extractLsb' 23 5 = 0b00010#5 ∧ w.extractLsb' 20 2 = 0b00#2)) ∨
    (w.extractLsb' 25 3 = 0b000#3 ∧ w.getLsbD 7 = true ∧ w.getLsbD 4 = true ∧ w.getLsbD 20 = false ∧
      w.getLsbD 6 = true))

/-- Words written out from the formats of 30_encoding.md decode to the instructions they stand for. -/
def Obligations.SpecWordsDecode : Prop :=
  decode (.arm 0xE2917004#32) = .ok (.addImm .al true 1 7 0 4) ∧
  decode (.arm 0xE0010392#32) = .ok (.mul .al false 1 0 3 2) ∧
  decode (.arm 0xE129F000#32) = .ok (.msrReg .al false 0b1001 0xF 0 0 0) ∧
  decode (.arm 0xE1020091#32) = .ok (.swp .al 2 0 0 1) ∧
  decode (.arm 0xE5910004#32) = .ok (.ldrImmPre .al true false 1 0 4) ∧
  decode (.arm 0xE1D100B2#32) = .ok (.ldrhImm .al true true false 1 0 0 2) ∧
  decode (.arm 0xE8FD8000#32) = .ok (.ldmRet .al false true true 13 0) ∧
  decode (.arm 0xEB00003E#32) = .ok (.bl .al 0x3E) ∧
  decode (.arm 0xEE100F10#32) = .ok (.mrc .al 0 0 0 15 0 0) ∧
  decode (.thumb 0x4348#16) = .ok (.tMul 1 0) ∧
  decode (.thumb 0x4480#16) = .ok (.tAddHi true false 0 0) ∧
  decode (.thumb 0xBD10#16) = .ok (.tPop true 0b00010000) ∧
  decode (.thumb 0xD1FE#16) = .ok (.tBCond .ne 0xFE)

/-- A step at which an instruction runs is the meaning of the instruction read at the pc, in the state after its fetch,
and then the devices' part of the iteration (R45, R530); a word of no row raises Undefined instead (R150).  A halted
machine only advances its devices (R570), and a step that finds a DMA advance unfinished goes on with it (log entry 13). -/
def Obligations.StepRunsDecoded : Prop :=
  (∀ s : State, s.dmaResume = none → s.dev.halted = false →
    (∀ i : Instr, decode (fetch s).1 = .ok i →
      step s = match exec i (fetch s).2 with
        | .next t => .next (advanceDevices t)
        | .fault e => .fault e
        | .refused r => .refused r) ∧
    (∀ e : DecodeError, decode (fetch s).1 = .error e →
      step s = match undecoded (fetch s).1 (fetch s).2 with
        | .next t => .next (advanceDevices t)
        | .fault e => .fault e
        | .refused r => .refused r)) ∧
  (∀ s : State, s.dmaResume = none → s.dev.halted = true → step s = .next (advanceDevices s)) ∧
  (∀ (s : State) (cycles : Nat), s.dmaResume = some cycles → step s = .next (dmaPhase cycles s))

-- Reset and the register file

/-- R603: direct boot leaves the state in which the BIOS starts a cartridge; devices and memory are as without it.  Without
BIOS_IMAGE a fetch in the BIOS region gives free bytes. -/
def Obligations.ResetDirectBoot : Prop :=
  (∀ (p : Params) (bios : Option (Vector Byte 0x4000)) (rom : List Byte), p.directBoot = true →
    let s := State.resetWith p bios rom
    s.cpsr.toWord = 0x0000001F ∧ s.pc = 0x08000000 ∧
    (∀ i : Reg, i.toNat ≤ 12 → s.regOf .usr i = 0) ∧
    s.regOf .usr 13 = 0x03007F00 ∧ s.regOf .usr 14 = 0 ∧
    s.regOf .irq 13 = 0x03007FA0 ∧ s.regOf .irq 14 = 0 ∧
    s.regOf .svc 13 = 0x03007FE0 ∧ s.regOf .svc 14 = 0 ∧
    (∀ i : Reg, 8 ≤ i.toNat → i.toNat ≤ 14 → s.regOf .fiq i = 0) ∧
    (∀ i : Reg, 13 ≤ i.toNat → i.toNat ≤ 14 → s.regOf .abt i = 0 ∧ s.regOf .und i = 0) ∧
    (∀ m : Mode, ∀ q : Psr, s.spsrOf m = some q → q.toWord = 0) ∧
    s.dev = (State.resetWith { p with directBoot := false } bios rom).dev ∧
    s.mem = (State.resetWith { p with directBoot := false } bios rom).mem ∧
    (s.params.biosImage = false ↔ bios = none)) ∧
  (∀ s : State, s.bus = Bus.gba → s.params.biosImage = false → s.pc.toNat < 0x4000 →
    (s.cpsr.t = false → fetch s = (.arm (freeBytes s 4), { s with draws := s.draws + 4 })) ∧
    (s.cpsr.t = true → fetch s = (.thumb ((freeBytes s 2).extractLsb' 0 16), { s with draws := s.draws + 2 })))

/-- What the spec fixes after a reset to the vector (R62, R600, R580): Supervisor mode, I = F = 1, T = 0, reserved bits 0,
pc 0, running; the interrupt registers, timers, DMA channels, PPU counters, DISPSTAT's stored bits and KEYCNT 0, both
FIFOs empty with no drain signalled.  Every readable byte of I/O reads 0, but for KEYINPUT, which is NOT INPUT, and for
DISPSTAT bit 2, which reads 1 because VCOUNT equals its compare line (log entry 34).  The images and the other parameters
of R10 are those the host supplies.  The host's reset (R601, R602) leaves the CPU and the devices as power-on does; that
RAM keeps its bytes is the model's choice, which R602 admits (log entry 14). -/
def Obligations.ResetToVector : Prop :=
  (∀ (p : Params) (bios : Option (Vector Byte 0x4000)) (rom : List Byte), p.directBoot = false →
    let s := State.resetWith p bios rom
    s.pc = 0 ∧ s.cpsr.toWord &&& 0x0FFFFFFF#32 = 0x000000D3 ∧ s.lastUsrBank = false ∧ s.dev.halted = false ∧
    s.dmaResume = none ∧
    s.dev.ie = 0 ∧ s.dev.iflags = 0 ∧ s.dev.ime = false ∧
    (∀ n : Fin 4, s.dev.timers[n].counter = 0 ∧ s.dev.timers[n].reload = 0 ∧ s.dev.timers[n].ctlHalf = 0 ∧
      s.dev.timers[n].count = 0) ∧
    (∀ n : Fin 4, s.dev.dma[n] = ⟨0, 0, 0, 0, 0, 0, 0, false⟩ ∧ s.dev.dma[n].armed = false) ∧
    s.dev.vcountHalf = 0 ∧ s.dev.ppu.dot = 0 ∧ s.dev.ppu.sub = 0 ∧ s.dev.dispstat = ⟨false, false, false, 0⟩ ∧
    s.dev.fifoA.bytes = [] ∧ s.dev.fifoB.bytes = [] ∧ s.dev.fifoA.drains = 0 ∧ s.dev.fifoB.drains = 0 ∧
    s.dev.keycnt = ⟨0, false, false⟩ ∧ s.keyinputHalf = (~~~s.buttons).zeroExtend 16 ∧
    (∀ off : Nat, (ioRegAt off).1 = .plain ∨ (ioRegAt off).1 = .soundCntH → ioRead s off = some 0) ∧
    (∀ (off : Nat) (b : Byte), ioRead s off = some b → off ≠ 0x130 → off ≠ 0x131 → b = if off = 4 then 4 else 0)) ∧
  (∀ (p : Params) (bios : Option (Vector Byte 0x4000)) (rom : List Byte),
    let s := State.resetWith p bios rom
    s.params = { p with biosImage := s.params.biosImage, romSize := min rom.length 0x2000000 } ∧
    (∀ image : Vector Byte 0x4000, bios = some image → ∀ k : Fin 0x4000, s.mem.read k.val = image[k]) ∧
    (∀ k < min rom.length 0x2000000, rom[k]? = some (s.mem.read (0x08000000 + k)))) ∧
  (∀ s : State,
    let t := hostReset s
    let r := State.resetWith s.params none []
    t.gpr = r.gpr ∧ t.pc = r.pc ∧ t.cpsr = r.cpsr ∧ t.spsr = r.spsr ∧ t.lastUsrBank = r.lastUsrBank ∧
    t.dev = r.dev ∧ t.params = s.params ∧ t.dmaResume = none ∧
    (∀ a : Word, byteAt t a = if region s.bus a = .io then 0 else byteAt s a))

/-- The banked register file (R33): a write of `R<i>` in one mode is read in another exactly where both modes see the same
physical register; R15 is one for all modes; a mode's SPSR is its own, and User and System mode have none. -/
def Obligations.BankedRegisters : Prop :=
  (∀ (s : State) (m k : Mode) (i j : Reg) (v : Word), i ≠ 15 → j ≠ 15 →
    (s.setRegOf m i v).regOf k j = if i = j ∧ bankOf m i = bankOf k j then v else s.regOf k j) ∧
  (∀ (s : State) (m : Mode) (v : Word), s.setRegOf m 15 v = { s with pc := v }) ∧
  (∀ (s : State) (i : Reg) (v : Word), i ≠ 15 →
    (s.x i = s.regOf s.cpsr.mode i ∧ s.xUsr i = s.regOf .usr i) ∧
    (s.setX i v = s.setRegOf s.cpsr.mode i v ∧ s.setXUsr i v = s.setRegOf .usr i v)) ∧
  (∀ (s : State) (m k : Mode) (p : Psr),
    (s.setSpsr m p).spsrOf k = if m = k ∧ m ≠ .usr ∧ m ≠ .sys then some p else s.spsrOf k) ∧
  (∀ (s : State) (m : Mode), s.spsrOf m = none ↔ m = .usr ∨ m = .sys)

/-- Every reset state meets the invariant of the machine. -/
def Obligations.ResetMeetsInvariant : Prop :=
  Inv State.reset ∧
    ∀ (p : Params) (bios : Option (Vector Byte 0x4000)) (rom : List Byte), Inv (State.resetWith p bios rom)

-- Conditions and should-be fields

/-- R200: each condition passes as its row of the table says; an ARM instruction whose condition fails only advances
the pc by 4.  R201, R172: cond = 1111 is the case `cond-nv`, at which a strict machine stops and the ARM7TDMI only
advances the pc. -/
def Obligations.ConditionsOfInstructions : Prop :=
  (∀ p : Cpsr,
    (condPassed (Cond.ofBits 0b0000) p = true ↔ p.z = true) ∧
    (condPassed (Cond.ofBits 0b0001) p = true ↔ p.z = false) ∧
    (condPassed (Cond.ofBits 0b0010) p = true ↔ p.c = true) ∧
    (condPassed (Cond.ofBits 0b0011) p = true ↔ p.c = false) ∧
    (condPassed (Cond.ofBits 0b0100) p = true ↔ p.n = true) ∧
    (condPassed (Cond.ofBits 0b0101) p = true ↔ p.n = false) ∧
    (condPassed (Cond.ofBits 0b0110) p = true ↔ p.v = true) ∧
    (condPassed (Cond.ofBits 0b0111) p = true ↔ p.v = false) ∧
    (condPassed (Cond.ofBits 0b1000) p = true ↔ p.c = true ∧ p.z = false) ∧
    (condPassed (Cond.ofBits 0b1001) p = true ↔ p.c = false ∨ p.z = true) ∧
    (condPassed (Cond.ofBits 0b1010) p = true ↔ p.n = p.v) ∧
    (condPassed (Cond.ofBits 0b1011) p = true ↔ p.n ≠ p.v) ∧
    (condPassed (Cond.ofBits 0b1100) p = true ↔ p.z = false ∧ p.n = p.v) ∧
    (condPassed (Cond.ofBits 0b1101) p = true ↔ p.z = true ∨ p.n ≠ p.v) ∧
    condPassed (Cond.ofBits 0b1110) p = true) ∧
  (∀ (i : Instr) (c : Cond) (s : State), condOf i = some c → c ≠ .nv → condPassed c s.cpsr = false →
    exec i s = .next (after s s.gpr s.cpsr (s.pc + 4))) ∧
  (∀ (i : Instr) (s : State), condOf i = some (Cond.ofBits 0b1111) →
    exec i s = if s.strict then .fault (.unpredictable .condNv) else .next (after s s.gpr s.cpsr (s.pc + 4)))

/-- R21: a word with an SBZ bit 1 or an SBO bit 0 is the case `sbz-sbo`: a strict machine stops, otherwise it executes as
if the field held its required value. -/
def Obligations.ShouldBeFields : Prop :=
  ∀ (i : Instr) (s : State), decode (encode i) = .ok i → ¬ i.WellFormed →
    (∀ c, condOf i = some c → condPassed c s.cpsr = true) →
    (s.strict = true → exec i s = .fault (.unpredictable .sbzSbo)) ∧
    (s.strict = false → exec i s = exec (proper i) s ∧ (proper i).WellFormed)

-- Data processing

/-- The sixteen operations (R220 to R235) with the C and V they give (R17, R214, R215): a logical operation takes the
shifter's carry and keeps V, an addition and a subtraction take carry, NOT borrow and overflow of exact integers. -/
def Obligations.AluOperations : Prop :=
  ∀ (n : Word) (b : Shifted) (p : Cpsr),
    DpOp.and.apply n b p = ⟨n &&& b.value, b.carry, p.v⟩ ∧
    DpOp.eor.apply n b p = ⟨n ^^^ b.value, b.carry, p.v⟩ ∧
    DpOp.sub.apply n b p = ⟨n - b.value, noBorrow n b.value true, overflowSub n b.value true⟩ ∧
    DpOp.rsb.apply n b p = ⟨b.value - n, noBorrow b.value n true, overflowSub b.value n true⟩ ∧
    DpOp.add.apply n b p = ⟨n + b.value, carryOf n b.value false, overflowOf n b.value false⟩ ∧
    DpOp.adc.apply n b p =
      ⟨n + b.value + BitVec.ofNat 32 p.c.toNat, carryOf n b.value p.c, overflowOf n b.value p.c⟩ ∧
    DpOp.sbc.apply n b p =
      ⟨n - b.value - BitVec.ofNat 32 (1 - p.c.toNat), noBorrow n b.value p.c, overflowSub n b.value p.c⟩ ∧
    DpOp.rsc.apply n b p =
      ⟨b.value - n - BitVec.ofNat 32 (1 - p.c.toNat), noBorrow b.value n p.c, overflowSub b.value n p.c⟩ ∧
    DpOp.tst.apply n b p = ⟨n &&& b.value, b.carry, p.v⟩ ∧
    DpOp.teq.apply n b p = ⟨n ^^^ b.value, b.carry, p.v⟩ ∧
    DpOp.cmp.apply n b p = ⟨n - b.value, noBorrow n b.value true, overflowSub n b.value true⟩ ∧
    DpOp.cmn.apply n b p = ⟨n + b.value, carryOf n b.value false, overflowOf n b.value false⟩ ∧
    DpOp.orr.apply n b p = ⟨n ||| b.value, b.carry, p.v⟩ ∧
    DpOp.mov.apply n b p = ⟨b.value, b.carry, p.v⟩ ∧
    DpOp.bic.apply n b p = ⟨n &&& ~~~b.value, b.carry, p.v⟩ ∧
    DpOp.mvn.apply n b p = ⟨~~~b.value, b.carry, p.v⟩

/-- The immediate operand (R203) and a register shifted by an immediate (R204 to R207), by the value of every bit or of
the number: amount 0 is a shift by 32 for LSR and ASR, and RRX for ROR. -/
def Obligations.ShifterByImmediate : Prop :=
  (∀ (rot : BitVec 4) (imm8 : BitVec 8) (c : Bool),
    (∀ k < 32, (immShifted rot imm8 c).value.getLsbD k = imm8.getLsbD ((k + 2 * rot.toNat) % 32)) ∧
    (immShifted rot imm8 c).carry = if rot = 0 then c else (immShifted rot imm8 c).value.getLsbD 31) ∧
  (∀ (m : Word) (c : Bool),
    shiftByImm .lsl m 0 c = ⟨m, c⟩ ∧
    shiftByImm .lsr m 0 c = ⟨0, m.getLsbD 31⟩ ∧
    shiftByImm .asr m 0 c = ⟨if m.getLsbD 31 then 0xFFFFFFFF else 0, m.getLsbD 31⟩ ∧
    (∀ k < 31, (shiftByImm .ror m 0 c).value.getLsbD k = m.getLsbD (k + 1)) ∧
    (shiftByImm .ror m 0 c).value.getLsbD 31 = c ∧
    (shiftByImm .ror m 0 c).carry = m.getLsbD 0) ∧
  (∀ (m : Word) (amt : BitVec 5) (c : Bool), amt ≠ 0 →
    (shiftByImm .lsl m amt c).value.toNat = m.toNat * 2 ^ amt.toNat % 2 ^ 32 ∧
    (shiftByImm .lsl m amt c).carry = m.getLsbD (32 - amt.toNat) ∧
    (shiftByImm .lsr m amt c).value.toNat = m.toNat / 2 ^ amt.toNat ∧
    (shiftByImm .lsr m amt c).carry = m.getLsbD (amt.toNat - 1) ∧
    (shiftByImm .asr m amt c).value.toInt = m.toInt / 2 ^ amt.toNat ∧
    (shiftByImm .asr m amt c).carry = m.getLsbD (amt.toNat - 1) ∧
    (∀ k < 32, (shiftByImm .ror m amt c).value.getLsbD k = m.getLsbD ((k + amt.toNat) % 32)) ∧
    (shiftByImm .ror m amt c).carry = m.getLsbD (amt.toNat - 1))

/-- A register shifted by the low byte of a register (R208 to R211), for amounts 0, 1 to 31, 32 and above. -/
def Obligations.ShifterByRegister : Prop :=
  (∀ (sh : Shift) (m : Word) (c : Bool), shiftByReg sh m 0 c = ⟨m, c⟩) ∧
  (∀ (m : Word) (n : BitVec 8) (c : Bool), 1 ≤ n.toNat → n.toNat ≤ 31 →
    (shiftByReg .lsl m n c).value.toNat = m.toNat * 2 ^ n.toNat % 2 ^ 32 ∧
    (shiftByReg .lsl m n c).carry = m.getLsbD (32 - n.toNat) ∧
    (shiftByReg .lsr m n c).value.toNat = m.toNat / 2 ^ n.toNat ∧
    (shiftByReg .lsr m n c).carry = m.getLsbD (n.toNat - 1) ∧
    (shiftByReg .asr m n c).value.toInt = m.toInt / 2 ^ n.toNat ∧
    (shiftByReg .asr m n c).carry = m.getLsbD (n.toNat - 1)) ∧
  (∀ (m : Word) (c : Bool),
    shiftByReg .lsl m 32 c = ⟨0, m.getLsbD 0⟩ ∧ shiftByReg .lsr m 32 c = ⟨0, m.getLsbD 31⟩) ∧
  (∀ (m : Word) (n : BitVec 8) (c : Bool), 32 < n.toNat →
    shiftByReg .lsl m n c = ⟨0, false⟩ ∧ shiftByReg .lsr m n c = ⟨0, false⟩) ∧
  (∀ (m : Word) (n : BitVec 8) (c : Bool), 32 ≤ n.toNat →
    shiftByReg .asr m n c = ⟨if m.getLsbD 31 then 0xFFFFFFFF else 0, m.getLsbD 31⟩) ∧
  (∀ (m : Word) (n : BitVec 8) (c : Bool), n ≠ 0 → n.toNat % 32 = 0 →
    shiftByReg .ror m n c = ⟨m, m.getLsbD 31⟩) ∧
  (∀ (m : Word) (n : BitVec 8) (c : Bool), n.toNat % 32 ≠ 0 →
    (∀ k < 32, (shiftByReg .ror m n c).value.getLsbD k = m.getLsbD ((k + n.toNat) % 32)) ∧
    (shiftByReg .ror m n c).carry = m.getLsbD (n.toNat % 32 - 1))

/-- The result of every data-processing instruction that does not write R15 (R213 to R215, R220 to R235), in its three
operand forms: Rd, the flags with S = 1 or for a compare or test, and pc + 4; nothing else changes.  Rn and Rm = 15 read
pc + 8, and pc + 12 in the register-shift form (R212), which a strict machine stops. -/
def Obligations.DataProcessingResults : Prop :=
  ∀ (op : DpOp) (c : Cond) (sf : Bool) (sbz : BitVec 4) (rn rd : Reg) (s : State),
    (op.writesRd = true → rd ≠ 15) →
    (∀ (rot : BitVec 4) (imm8 : BitVec 8), Runs (dpImmInstr op c sf sbz rn rd rot imm8) s →
      exec (dpImmInstr op c sf sbz rn rd rot imm8) s =
        .next (dpAfter op sf rd (op.apply (s.armX rn) (immShifted rot imm8 s.cpsr.c) s.cpsr) s)) ∧
    (∀ (amt : BitVec 5) (sh : Shift) (rm : Reg), Runs (dpRsiInstr op c sf sbz rn rd amt sh rm) s →
      exec (dpRsiInstr op c sf sbz rn rd amt sh rm) s =
        .next (dpAfter op sf rd (op.apply (s.armX rn) (shiftByImm sh (s.armX rm) amt s.cpsr.c) s.cpsr) s)) ∧
    (∀ (rs : Reg) (sh : Shift) (rm : Reg), Runs (dpRsrInstr op c sf sbz rn rd rs sh rm) s → rs ≠ 15 →
      s.strict = false ∨ ((op.readsRn = true → rn ≠ 15) ∧ rm ≠ 15) →
      exec (dpRsrInstr op c sf sbz rn rd rs sh rm) s =
        .next (dpAfter op sf rd
          (op.apply (s.armX12 rn) (shiftByReg sh (s.armX12 rm) (lowByte (s.x rs)) s.cpsr.c) s.cpsr) s))

/-- A data-processing instruction that writes R15 (R213): with S = 0 a branch to the word-aligned result; with S = 1 an
exception return, the CPSR from the SPSR of the mode and the pc aligned for the restored T.  A strict machine stops a
misaligned target and the register-shift form. -/
def Obligations.DataProcessingToPc : Prop :=
  ∀ (op : DpOp) (c : Cond) (sbz : BitVec 4) (rn : Reg) (s : State), op.writesRd = true →
    (∀ (rot : BitVec 4) (imm8 : BitVec 8),
      let r := (op.apply (s.armX rn) (immShifted rot imm8 s.cpsr.c) s.cpsr).value
      (Runs (dpImmInstr op c false sbz rn 15 rot imm8) s → (s.strict = false ∨ align4 r = r) →
        exec (dpImmInstr op c false sbz rn 15 rot imm8) s = .next (after s s.gpr s.cpsr (align4 r))) ∧
      (∀ (p : Psr) (q : Cpsr), Runs (dpImmInstr op c true sbz rn 15 rot imm8) s →
        s.spsrOf s.cpsr.mode = some p → p.restored = some q → (s.strict = false ∨ alignFor q.t r = r) →
        exec (dpImmInstr op c true sbz rn 15 rot imm8) s = .next (after s s.gpr q (alignFor q.t r)))) ∧
    (∀ (amt : BitVec 5) (sh : Shift) (rm : Reg),
      let r := (op.apply (s.armX rn) (shiftByImm sh (s.armX rm) amt s.cpsr.c) s.cpsr).value
      (Runs (dpRsiInstr op c false sbz rn 15 amt sh rm) s → (s.strict = false ∨ align4 r = r) →
        exec (dpRsiInstr op c false sbz rn 15 amt sh rm) s = .next (after s s.gpr s.cpsr (align4 r))) ∧
      (∀ (p : Psr) (q : Cpsr), Runs (dpRsiInstr op c true sbz rn 15 amt sh rm) s →
        s.spsrOf s.cpsr.mode = some p → p.restored = some q → (s.strict = false ∨ alignFor q.t r = r) →
        exec (dpRsiInstr op c true sbz rn 15 amt sh rm) s = .next (after s s.gpr q (alignFor q.t r)))) ∧
    (∀ (rs : Reg) (sh : Shift) (rm : Reg), s.strict = false → rs ≠ 15 →
      let r := (op.apply (s.armX12 rn) (shiftByReg sh (s.armX12 rm) (lowByte (s.x rs)) s.cpsr.c) s.cpsr).value
      (Runs (dpRsrInstr op c false sbz rn 15 rs sh rm) s →
        exec (dpRsrInstr op c false sbz rn 15 rs sh rm) s = .next (after s s.gpr s.cpsr (align4 r))) ∧
      (∀ (p : Psr) (q : Cpsr), Runs (dpRsrInstr op c true sbz rn 15 rs sh rm) s →
        s.spsrOf s.cpsr.mode = some p → p.restored = some q →
        exec (dpRsrInstr op c true sbz rn 15 rs sh rm) s = .next (after s s.gpr q (alignFor q.t r))))

-- Multiply

/-- R260 to R265: the products, their registers and flags.  C, and V of the long forms, are free bits (D22, log entry 8);
the cases `mul-pc`, `mul-rd-rm` and `mull-regs` stop the machine. -/
def Obligations.MultiplyResults : Prop :=
  ∀ (c : Cond) (sf : Bool) (s : State),
    (∀ (rd : Reg) (sbz : BitVec 4) (rs rm : Reg), Runs (.mul c sf rd sbz rs rm) s →
      let v := BitVec.ofNat 32 ((s.x rm).toNat * (s.x rs).toNat)
      (15 ∉ [rd, rs, rm] → rd ≠ rm → exec (.mul c sf rd sbz rs rm) s = .next
        { after s (regsWith s rd v) (if sf then flagsWith s v (Config.freeBit s.draws) s.cpsr.v else s.cpsr) (s.pc + 4)
          with draws := if sf then s.draws + 1 else s.draws }) ∧
      (15 ∈ [rd, rs, rm] → exec (.mul c sf rd sbz rs rm) s = .fault (.unpredictable .mulPc)) ∧
      (15 ∉ [rd, rs, rm] → rd = rm → exec (.mul c sf rd sbz rs rm) s = .fault (.unpredictable .mulRdRm))) ∧
    (∀ (rd rn rs rm : Reg), Runs (.mla c sf rd rn rs rm) s →
      let v := BitVec.ofNat 32 ((s.x rm).toNat * (s.x rs).toNat + (s.x rn).toNat)
      (15 ∉ [rd, rn, rs, rm] → rd ≠ rm → exec (.mla c sf rd rn rs rm) s = .next
        { after s (regsWith s rd v) (if sf then flagsWith s v (Config.freeBit s.draws) s.cpsr.v else s.cpsr) (s.pc + 4)
          with draws := if sf then s.draws + 1 else s.draws }) ∧
      (15 ∈ [rd, rn, rs, rm] → exec (.mla c sf rd rn rs rm) s = .fault (.unpredictable .mulPc)) ∧
      (15 ∉ [rd, rn, rs, rm] → rd = rm → exec (.mla c sf rd rn rs rm) s = .fault (.unpredictable .mulRdRm))) ∧
    (∀ (signed acc : Bool) (rdHi rdLo rs rm : Reg),
      let i : Instr := match signed, acc with
        | false, false => .umull c sf rdHi rdLo rs rm
        | false, true => .umlal c sf rdHi rdLo rs rm
        | true, false => .smull c sf rdHi rdLo rs rm
        | true, true => .smlal c sf rdHi rdLo rs rm
      let p := longProduct signed acc s rdHi rdLo rs rm
      Runs i s →
      (15 ∉ [rdHi, rdLo, rs, rm] → rdHi ≠ rdLo → rdHi ≠ rm → rdLo ≠ rm → exec i s = .next
        { after s ((regsWith s rdHi (p.extractLsb' 32 32)).set (physReg s.cpsr.mode rdLo) (p.extractLsb' 0 32))
            (if sf then { s.cpsr with n := p.getLsbD 63, z := p == 0, c := Config.freeBit s.draws,
                                      v := Config.freeBit (s.draws + 1) }
              else s.cpsr) (s.pc + 4)
          with draws := if sf then s.draws + 2 else s.draws }) ∧
      (15 ∈ [rdHi, rdLo, rs, rm] ∨ rdHi = rdLo ∨ rdHi = rm ∨ rdLo = rm →
        exec i s = .fault (.unpredictable .mullRegs)))

-- Status registers and swap

/-- R280: MRS reads the CPSR, or the SPSR of the mode, with bits 27:8 zero (R55); the SPSR of User and System mode and
Rd = 15 stop the machine; that Rd = 15 is the case named where both hold is the model's choice (log entry 25). -/
def Obligations.MrsReadsStatus : Prop :=
  ∀ (c : Cond) (r : Bool) (sbo : BitVec 4) (rd : Reg) (sbzA : BitVec 4) (sbzB : BitVec 2) (sbzC : BitVec 4) (s : State),
    Runs (.mrs c r sbo rd sbzA sbzB sbzC) s →
    (r = false → rd ≠ 15 →
      exec (.mrs c r sbo rd sbzA sbzB sbzC) s = .next (after s (regsWith s rd s.cpsr.toWord) s.cpsr (s.pc + 4))) ∧
    (∀ p : Psr, r = true → rd ≠ 15 → s.spsrOf s.cpsr.mode = some p →
      exec (.mrs c r sbo rd sbzA sbzB sbzC) s = .next (after s (regsWith s rd p.toWord) s.cpsr (s.pc + 4))) ∧
    (r = true → rd ≠ 15 → s.cpsr.mode = .usr ∨ s.cpsr.mode = .sys →
      exec (.mrs c r sbo rd sbzA sbzB sbzC) s = .fault (.unpredictable .mrsSpsrNospsr)) ∧
    (rd = 15 → exec (.mrs c r sbo rd sbzA sbzB sbzC) s = .fault (.unpredictable .mrsPc)) ∧
    (∀ p : Psr, s.cpsr.toWord &&& 0x0FFFFF00#32 = 0 ∧ p.toWord &&& 0x0FFFFF00#32 = 0)

/-- The MSR write procedure (R281, R282, R283) with the operand w, the register or the rotated immediate: the control byte
where field_mask bit 0 is set, outside User mode for the CPSR, the flags where bit 3 is set, no other bit; a change of T, a
value of M that is no mode, the SPSR of User or System mode and Rm = 15 stop the machine. -/
def Obligations.MsrWritesStatus : Prop :=
  (∀ (i : Instr) (c : Cond) (r : Bool) (mask sbo : BitVec 4) (w : Word) (s : State),
    ((∃ sbzA sbzB rm, rm ≠ 15 ∧ i = .msrReg c r mask sbo sbzA sbzB rm ∧ w = s.x rm) ∨
      (∃ rot imm8, i = .msrImm c r mask sbo rot imm8 ∧ w = (immShifted rot imm8 s.cpsr.c).value)) →
    Runs i s →
    let field : Word := (if mask.getLsbD 0 then 0xFF#32 else 0) ||| (if mask.getLsbD 3 then 0xF0000000#32 else 0)
    let allowed : Word := if s.cpsr.mode = .usr then 0xF0000000#32 else 0xF00000FF#32
    (r = false → mask.getLsbD 0 = true → s.cpsr.mode ≠ .usr → w.getLsbD 5 ≠ s.cpsr.t →
      exec i s = .fault (.unpredictable .msrT)) ∧
    (r = false → mask.getLsbD 0 = true → s.cpsr.mode ≠ .usr → w.getLsbD 5 = s.cpsr.t →
      Mode.ofBits (w.extractLsb' 0 5) = none → exec i s = .fault (.unpredictable .badMode)) ∧
    (r = false → (mask.getLsbD 0 = true → s.cpsr.mode ≠ .usr →
        w.getLsbD 5 = s.cpsr.t ∧ Mode.ofBits (w.extractLsb' 0 5) ≠ none) →
      ∃ q : Cpsr, exec i s = .next (after s s.gpr q (s.pc + 4)) ∧
        q.toWord = (s.cpsr.toWord &&& ~~~(field &&& allowed)) ||| (w &&& field &&& allowed)) ∧
    (∀ p : Psr, r = true → s.spsrOf s.cpsr.mode = some p →
      ∃ q : Psr, exec i s = .next { (s.setSpsr s.cpsr.mode q) with pc := s.pc + 4, lastUsrBank := false } ∧
        q.toWord = (p.toWord &&& ~~~field) ||| (w &&& field)) ∧
    (r = true → s.cpsr.mode = .usr ∨ s.cpsr.mode = .sys → exec i s = .fault (.unpredictable .msrSpsrNospsr))) ∧
  (∀ (c : Cond) (r : Bool) (mask sbo sbzA : BitVec 4) (sbzB : BitVec 2) (s : State),
    Runs (.msrReg c r mask sbo sbzA sbzB 15) s →
    exec (.msrReg c r mask sbo sbzA sbzB 15) s = .fault (.unpredictable .msrPc))

/-- R531: no instruction executed in User mode changes the mode, the interrupt masks, a saved status register or a banked
register, except by taking an exception of R502 or R504. -/
def Obligations.UserModeIsolation : Prop :=
  ∀ (i : Instr) (s t : State), s.cpsr.mode = .usr → exec i s = .next t →
    (t.cpsr.mode = .usr ∧ t.cpsr.i = s.cpsr.i ∧ t.cpsr.f = s.cpsr.f ∧ t.spsr = s.spsr ∧
      (∀ k : Fin 30, 15 ≤ k.val → t.gpr[k] = s.gpr[k])) ∨
    (∃ e : Exc, (e = .undefined ∨ e = .softwareInterrupt) ∧
      t = takeExceptionWithLink e (s.pc + (if isThumb i then 2 else 4)) s.begun)

/-- R290, R291: the rotated word or the byte is read, then Rm is stored, then Rd is written; any register 15, or Rn equal
to another, stops the machine. -/
def Obligations.SwapResults : Prop :=
  ∀ (c : Cond) (rn rd : Reg) (sbz : BitVec 4) (rm : Reg) (s : State),
    (Runs (.swp c rn rd sbz rm) s →
      let (v, s1) := loadRotated (s.x rn) s.begun
      (15 ∉ [rd, rm, rn] → rn ≠ rm → rn ≠ rd → StoreRuns (align4 (s.x rn)) .word (s.x rm) s1 →
        exec (.swp c rn rd sbz rm) s = .next
          { busWrite (align4 (s.x rn)) .word (s.x rm) s1 with gpr := regsWith s rd v, pc := s.pc + 4 }) ∧
      (15 ∈ [rd, rm, rn] → exec (.swp c rn rd sbz rm) s = .fault (.unpredictable .swpPc)) ∧
      (15 ∉ [rd, rm, rn] → rn = rm ∨ rn = rd → exec (.swp c rn rd sbz rm) s = .fault (.unpredictable .swpRnOverlap))) ∧
    (Runs (.swpb c rn rd sbz rm) s →
      let (v, s1) := cpuRead (s.x rn) .byte s.begun
      (15 ∉ [rd, rm, rn] → rn ≠ rm → rn ≠ rd → StoreRuns (s.x rn) .byte (s.x rm) s1 →
        exec (.swpb c rn rd sbz rm) s = .next
          { busWrite (s.x rn) .byte (s.x rm) s1 with gpr := regsWith s rd v, pc := s.pc + 4 }) ∧
      (15 ∈ [rd, rm, rn] → exec (.swpb c rn rd sbz rm) s = .fault (.unpredictable .swpPc)) ∧
      (15 ∉ [rd, rm, rn] → rn = rm ∨ rn = rd →
        exec (.swpb c rn rd sbz rm) s = .fault (.unpredictable .swpRnOverlap)))

-- Loads and stores

/-- R300, R301, R303, R305, R307: every ARM load of a word or byte, the word rotated by the byte offset of its address,
with its write-back before Rd; LDR of R15 is a branch that stays in ARM state.  A strict machine stops a write-back to Rd,
of which the ARM7TDMI keeps the loaded value.  The first clauses fix the address and the write-back value for each P and U
(R300, R310), the offsets (R157), and what the rotated load gives of any memory and of RAM (R301). -/
def Obligations.LoadWordOrByte : Prop :=
  (∀ (base off : Word) (w : Bool),
    addressOf base off true true w = ⟨base + off, base + off, w⟩ ∧
    addressOf base off true false w = ⟨base - off, base - off, w⟩ ∧
    addressOf base off false true w = ⟨base, base + off, true⟩ ∧
    addressOf base off false false w = ⟨base, base - off, true⟩) ∧
  (∀ (imm12 : BitVec 12) (immH immL : BitVec 4) (rm : Reg) (sh : Shift) (amt : BitVec 5) (s : State),
    (offset12 imm12).toNat = imm12.toNat ∧ (offsetHalf immH immL).toNat = immH.toNat * 16 + immL.toNat ∧
    offsetReg s rm sh amt = (shiftByImm sh (s.armX rm) amt s.cpsr.c).value) ∧
  (∀ (a : Word) (s : State),
    let r := cpuRead (align4 a) .word s
    (loadRotated a s).2 = r.2 ∧
    (∀ k < 32, (loadRotated a s).1.getLsbD k = r.1.getLsbD ((k + 8 * (a.toNat % 4)) % 32)) ∧
    (s.bus = Bus.gba → isRam (region s.bus a) = true → (loadRotated a s).2 = s ∧
      ∀ j < 4, (loadRotated a s).1.extractLsb' (8 * j) 8 =
        byteAt s (align4 a + BitVec.ofNat 32 ((a.toNat + j) % 4)))) ∧
  ∀ (c : Cond) (p u w : Bool) (rn rd : Reg) (s : State),
    (∀ (imm12 : BitVec 12),
      let a := addressOf (s.armX rn) (offset12 imm12) p u w
      (a.writeBack = true → rn ≠ 15) →
      (Runs (ldrImmInstr c p u w rn rd imm12) s → rd ≠ 15 → (s.strict = false ∨ ¬(a.writeBack = true ∧ rn = rd)) →
        exec (ldrImmInstr c p u w rn rd imm12) s = .next
          { (loadRotated a.addr s.begun).2 with
            gpr := regsLoaded s a rn rd (loadRotated a.addr s.begun).1, pc := s.pc + 4 }) ∧
      (Runs (ldrImmInstr c p u w rn 15 imm12) s → (p = true ∨ w = false) →
        exec (ldrImmInstr c p u w rn 15 imm12) s = .next
          { (loadRotated a.addr s.begun).2 with
            gpr := regsStored s a rn, pc := align4 (loadRotated a.addr s.begun).1 }) ∧
      (Runs (ldrbImmInstr c p u w rn rd imm12) s → rd ≠ 15 → (s.strict = false ∨ ¬(a.writeBack = true ∧ rn = rd)) →
        exec (ldrbImmInstr c p u w rn rd imm12) s = .next
          { (cpuRead a.addr .byte s.begun).2 with
            gpr := regsLoaded s a rn rd (cpuRead a.addr .byte s.begun).1, pc := s.pc + 4 })) ∧
    (∀ (amt : BitVec 5) (sh : Shift) (rm : Reg), rm ≠ 15 →
      let a := addressOf (s.armX rn) (offsetReg s rm sh amt) p u w
      (a.writeBack = true → rn ≠ 15) →
      (Runs (ldrRegInstr c p u w rn rd amt sh rm) s → rd ≠ 15 → (s.strict = false ∨ ¬(a.writeBack = true ∧ rn = rd)) →
        exec (ldrRegInstr c p u w rn rd amt sh rm) s = .next
          { (loadRotated a.addr s.begun).2 with
            gpr := regsLoaded s a rn rd (loadRotated a.addr s.begun).1, pc := s.pc + 4 }) ∧
      (Runs (ldrRegInstr c p u w rn 15 amt sh rm) s → (p = true ∨ w = false) →
        exec (ldrRegInstr c p u w rn 15 amt sh rm) s = .next
          { (loadRotated a.addr s.begun).2 with
            gpr := regsStored s a rn, pc := align4 (loadRotated a.addr s.begun).1 }) ∧
      (Runs (ldrbRegInstr c p u w rn rd amt sh rm) s → rd ≠ 15 → (s.strict = false ∨ ¬(a.writeBack = true ∧ rn = rd)) →
        exec (ldrbRegInstr c p u w rn rd amt sh rm) s = .next
          { (cpuRead a.addr .byte s.begun).2 with
            gpr := regsLoaded s a rn rd (cpuRead a.addr .byte s.begun).1, pc := s.pc + 4 }))

/-- R310, R311, R313, R314: the halfword and signed loads with an immediate or register offset.  At an odd address, which
a strict machine stops, LDRH rotates the aligned halfword right by 8 and LDRSH gives the sign-extended byte; the first
clauses say what each load gives of any memory and of RAM. -/
def Obligations.LoadHalfOrSigned : Prop :=
  (∀ (a : Word) (s : State),
    let h := cpuRead (align2 a) .half s
    let b := cpuRead a .byte s
    (loadHalfRotated a s).2 = h.2 ∧ (loadByteSigned a s).2 = b.2 ∧
    (∀ k < 32, (loadHalfRotated a s).1.getLsbD k = h.1.getLsbD ((k + 8 * (a.toNat % 2)) % 32)) ∧
    (loadByteSigned a s).1.toInt = (b.1.extractLsb' 0 8).toInt ∧
    (a.getLsbD 0 = false → (loadHalfSigned a s).2 = h.2 ∧ (loadHalfSigned a s).1.toInt = (h.1.extractLsb' 0 16).toInt) ∧
    (a.getLsbD 0 = true → (loadHalfSigned a s).2 = b.2 ∧ (loadHalfSigned a s).1.toInt = (b.1.extractLsb' 0 8).toInt)) ∧
  (∀ (a : Word) (s : State), s.bus = Bus.gba → isRam (region s.bus a) = true →
    (a.getLsbD 0 = false →
      loadHalfRotated a s = ((byteAt s (a + 1) ++ byteAt s a).zeroExtend 32, s) ∧
      loadHalfSigned a s = ((byteAt s (a + 1) ++ byteAt s a).signExtend 32, s)) ∧
    (a.getLsbD 0 = true →
      loadHalfRotated a s = (byteAt s (a - 1) ++ 0#16 ++ byteAt s a, s) ∧
      loadHalfSigned a s = ((byteAt s a).signExtend 32, s)) ∧
    loadByteSigned a s = ((byteAt s a).signExtend 32, s)) ∧
  ∀ (c : Cond) (p u w : Bool) (rn rd : Reg) (s : State), (p = true ∨ w = false) → rd ≠ 15 →
    (∀ (immH immL : BitVec 4),
      let a := addressOf (s.armX rn) (offsetHalf immH immL) p u w
      (a.writeBack = true → rn ≠ 15) → (s.strict = false ∨ ¬(a.writeBack = true ∧ rn = rd)) →
      (Runs (.ldrhImm c p u w rn rd immH immL) s → (s.strict = false ∨ a.addr.getLsbD 0 = false) →
        exec (.ldrhImm c p u w rn rd immH immL) s = .next
          { (loadHalfRotated a.addr s.begun).2 with
            gpr := regsLoaded s a rn rd (loadHalfRotated a.addr s.begun).1, pc := s.pc + 4 }) ∧
      (Runs (.ldrsbImm c p u w rn rd immH immL) s →
        exec (.ldrsbImm c p u w rn rd immH immL) s = .next
          { (loadByteSigned a.addr s.begun).2 with
            gpr := regsLoaded s a rn rd (loadByteSigned a.addr s.begun).1, pc := s.pc + 4 }) ∧
      (Runs (.ldrshImm c p u w rn rd immH immL) s → (s.strict = false ∨ a.addr.getLsbD 0 = false) →
        exec (.ldrshImm c p u w rn rd immH immL) s = .next
          { (loadHalfSigned a.addr s.begun).2 with
            gpr := regsLoaded s a rn rd (loadHalfSigned a.addr s.begun).1, pc := s.pc + 4 })) ∧
    (∀ (sbz : BitVec 4) (rm : Reg), rm ≠ 15 →
      let a := addressOf (s.armX rn) (s.x rm) p u w
      (a.writeBack = true → rn ≠ 15) → (s.strict = false ∨ ¬(a.writeBack = true ∧ rn = rd)) →
      (Runs (.ldrhReg c p u w rn rd sbz rm) s → (s.strict = false ∨ a.addr.getLsbD 0 = false) →
        exec (.ldrhReg c p u w rn rd sbz rm) s = .next
          { (loadHalfRotated a.addr s.begun).2 with
            gpr := regsLoaded s a rn rd (loadHalfRotated a.addr s.begun).1, pc := s.pc + 4 }) ∧
      (Runs (.ldrsbReg c p u w rn rd sbz rm) s →
        exec (.ldrsbReg c p u w rn rd sbz rm) s = .next
          { (loadByteSigned a.addr s.begun).2 with
            gpr := regsLoaded s a rn rd (loadByteSigned a.addr s.begun).1, pc := s.pc + 4 }) ∧
      (Runs (.ldrshReg c p u w rn rd sbz rm) s → (s.strict = false ∨ a.addr.getLsbD 0 = false) →
        exec (.ldrshReg c p u w rn rd sbz rm) s = .next
          { (loadHalfSigned a.addr s.begun).2 with
            gpr := regsLoaded s a rn rd (loadHalfSigned a.addr s.begun).1, pc := s.pc + 4 }))

/-- R300, R302, R304, R306, R308, R310, R312: every ARM single store.  A word goes to the aligned word, R15 as pc + 12, a
halfword to the aligned halfword, a byte to its address; then the write-back. -/
def Obligations.StoreSingle : Prop :=
  ∀ (c : Cond) (p u w : Bool) (rn rd : Reg) (s : State),
    (∀ (imm12 : BitVec 12),
      let a := addressOf (s.armX rn) (offset12 imm12) p u w
      (a.writeBack = true → rn ≠ 15) → (s.strict = false ∨ ¬(a.writeBack = true ∧ rn = rd)) →
      (Runs (strImmInstr c p u w rn rd imm12) s → StoreRuns (align4 a.addr) .word (s.armX12 rd) s.begun →
        exec (strImmInstr c p u w rn rd imm12) s = .next
          { busWrite (align4 a.addr) .word (s.armX12 rd) s.begun with gpr := regsStored s a rn, pc := s.pc + 4 }) ∧
      (Runs (strbImmInstr c p u w rn rd imm12) s → rd ≠ 15 → StoreRuns a.addr .byte (s.x rd) s.begun →
        exec (strbImmInstr c p u w rn rd imm12) s = .next
          { busWrite a.addr .byte (s.x rd) s.begun with gpr := regsStored s a rn, pc := s.pc + 4 })) ∧
    (∀ (amt : BitVec 5) (sh : Shift) (rm : Reg), rm ≠ 15 →
      let a := addressOf (s.armX rn) (offsetReg s rm sh amt) p u w
      (a.writeBack = true → rn ≠ 15) → (s.strict = false ∨ ¬(a.writeBack = true ∧ rn = rd)) →
      (Runs (strRegInstr c p u w rn rd amt sh rm) s → StoreRuns (align4 a.addr) .word (s.armX12 rd) s.begun →
        exec (strRegInstr c p u w rn rd amt sh rm) s = .next
          { busWrite (align4 a.addr) .word (s.armX12 rd) s.begun with gpr := regsStored s a rn, pc := s.pc + 4 }) ∧
      (Runs (strbRegInstr c p u w rn rd amt sh rm) s → rd ≠ 15 → StoreRuns a.addr .byte (s.x rd) s.begun →
        exec (strbRegInstr c p u w rn rd amt sh rm) s = .next
          { busWrite a.addr .byte (s.x rd) s.begun with gpr := regsStored s a rn, pc := s.pc + 4 })) ∧
    (∀ (immH immL : BitVec 4), (p = true ∨ w = false) →
      let a := addressOf (s.armX rn) (offsetHalf immH immL) p u w
      (a.writeBack = true → rn ≠ 15) →
      (s.strict = false ∨ (¬(a.writeBack = true ∧ rn = rd) ∧ rd ≠ 15 ∧ a.addr.getLsbD 0 = false)) →
      Runs (.strhImm c p u w rn rd immH immL) s → StoreRuns (align2 a.addr) .half (s.armX12 rd) s.begun →
      exec (.strhImm c p u w rn rd immH immL) s = .next
        { busWrite (align2 a.addr) .half (s.armX12 rd) s.begun with gpr := regsStored s a rn, pc := s.pc + 4 }) ∧
    (∀ (sbz : BitVec 4) (rm : Reg), rm ≠ 15 → (p = true ∨ w = false) →
      let a := addressOf (s.armX rn) (s.x rm) p u w
      (a.writeBack = true → rn ≠ 15) →
      (s.strict = false ∨ (¬(a.writeBack = true ∧ rn = rd) ∧ rd ≠ 15 ∧ a.addr.getLsbD 0 = false)) →
      Runs (.strhReg c p u w rn rd sbz rm) s → StoreRuns (align2 a.addr) .half (s.armX12 rd) s.begun →
      exec (.strhReg c p u w rn rd sbz rm) s = .next
        { busWrite (align2 a.addr) .half (s.armX12 rd) s.begun with gpr := regsStored s a rn, pc := s.pc + 4 })

/-- R320: the first address and the write-back value of k registers in the four modes, k the number of registers listed,
and of 16 for an empty list, which then moves R15 alone; the registers move in ascending order. -/
def Obligations.BlockAddresses : Prop :=
  ∀ (base : Word) (list : BitVec 16),
    let regs := regList list
    let n : Word := if list = 0 then 0x40 else BitVec.ofNat 32 (4 * regs.length)
    (∀ r : Reg, r ∈ regs ↔ list.getLsbD r.toNat = true) ∧ regs.Pairwise (fun r q => r.toNat < q.toNat) ∧
    (∀ p u : Bool, (blockOf base p u list).regs = if list = 0 then [15] else regs) ∧
    blockOf base false true list = ⟨(blockOf base false true list).regs, base, base + n⟩ ∧
    blockOf base true true list = ⟨(blockOf base true true list).regs, base + 4, base + n⟩ ∧
    blockOf base false false list = ⟨(blockOf base false false list).regs, base - n + 4, base - n⟩ ∧
    blockOf base true false list = ⟨(blockOf base true false list).regs, base - n, base - n⟩

/-- R320 to R322: LDM and STM.  The words move at ascending aligned addresses; LDM writes back unless the base is listed,
and R15 loaded is a branch; STM stores R15 as pc + 12 and a base that is written back and is not the lowest as its new
value.  The first clauses say which word of RAM each register of a list gets, and which each stored value goes to. -/
def Obligations.BlockTransfers : Prop :=
  (∀ (a : Word) (regs : List Reg) (s : State), s.bus = Bus.gba →
    (∀ k < regs.length, isRam (region s.bus (a + BitVec.ofNat 32 (4 * k))) = true) →
    loadList a regs s =
      (regs.mapIdx fun k r => (r, valueAt s .word (align4 (a + BitVec.ofNat 32 (4 * k)))), s)) ∧
  (∀ (a : Word) (vs : List Word) (s : State), s.bus = Bus.gba → vs.length ≤ 16 →
    (∀ k < vs.length, isRam (region s.bus (a + BitVec.ofNat 32 (4 * k))) = true) →
    let word (k : Nat) := align4 (a + BitVec.ofNat 32 (4 * k))
    (∀ k < vs.length, vs[k]? = some (valueAt (storeWords a vs s) .word (word k))) ∧
    (∀ b : Word, (∀ k < vs.length, ∀ x < 4, cell s.bus b ≠ cell s.bus (word k + BitVec.ofNat 32 x)) →
      byteAt (storeWords a vs s) b = byteAt s b) ∧
    storeWords a vs s = s.setMem (storeWords a vs s).mem) ∧
  ∀ (c : Cond) (p u w : Bool) (rn : Reg) (list : BitVec 16) (s : State), rn ≠ 15 → s.strict = false ∨ list ≠ 0 →
    let b := blockOf (s.x rn) p u list
    (Runs (.ldm c p u w rn list) s → (s.strict = false ∨ ¬(w = true ∧ list.getLsbD rn.toNat = true)) →
      let l := loadList b.start b.regs s.begun
      let g := regsListed s.cpsr.mode l.1 s.gpr
      exec (.ldm c p u w rn list) s = .next
        { l.2 with
          gpr := if w && !list.getLsbD rn.toNat then g.set (physReg s.cpsr.mode rn) b.after else g
          pc := match loadedPc l.1 with
            | some v => align4 v
            | none => s.pc + 4 }) ∧
    (Runs (.stm c p u w rn list) s →
      (s.strict = false ∨ ¬(w = true ∧ list.getLsbD rn.toNat = true ∧ (regList list).head? ≠ some rn)) →
      let vs := b.regs.map fun r =>
        if r = 15 then s.pc + 12
        else if w = true ∧ list.getLsbD rn.toNat = true ∧ (regList list).head? ≠ some rn ∧ r = rn then b.after
        else s.x r
      StoresRun b.start vs s.begun →
      exec (.stm c p u w rn list) s = .next
        { storeWords b.start vs s.begun with gpr := if w then regsWith s rn b.after else s.gpr, pc := s.pc + 4 })

/-- R323, R325: the User-bank forms move the User column of registers and set `last_usr_bank`; W = 1, and User or System
mode, stop the machine.  That LDM with an empty list, which a strict machine stops, loads R15 alone and keeps the CPSR is the
model's reading (log entry 29).  R611: right after one, a strict machine stops an instruction that accesses a register banked
in the current mode, once its condition passes, and any other runs as though no such transfer came before, as all do on the
ARM7TDMI; a MOV shows what it runs to.  Which registers an instruction accesses is the model's reading (log entry 26). -/
def Obligations.UserBankTransfers : Prop :=
  (∀ (c : Cond) (p u w : Bool) (rn : Reg) (s : State), rn ≠ 15 →
    (∀ list : BitVec 15, Runs (.ldmUsr c p u w rn list) s → s.strict = false ∨ list ≠ 0 →
      let b := blockOf (s.x rn) p u list
      let l := loadList b.start b.regs s.begun
      (w = false → s.cpsr.mode ≠ .usr → s.cpsr.mode ≠ .sys →
        exec (.ldmUsr c p u w rn list) s = .next
          { l.2 with
            gpr := regsListed .usr l.1 s.gpr
            pc := match loadedPc l.1 with
              | some v => align4 v
              | none => s.pc + 4
            lastUsrBank := true }) ∧
      (w = true → exec (.ldmUsr c p u w rn list) s = .fault (.unpredictable .ldmUsrWb)) ∧
      (w = false → s.cpsr.mode = .usr ∨ s.cpsr.mode = .sys →
        exec (.ldmUsr c p u w rn list) s = .fault (.unpredictable .ldmUsrInUsr))) ∧
    (∀ list : BitVec 16, Runs (.stmUsr c p u w rn list) s → s.strict = false ∨ list ≠ 0 →
      let b := blockOf (s.x rn) p u list
      let vs := b.regs.map fun r => if r = 15 then s.pc + 12 else s.xUsr r
      (w = false → s.cpsr.mode ≠ .usr → s.cpsr.mode ≠ .sys → StoresRun b.start vs s.begun →
        exec (.stmUsr c p u w rn list) s = .next
          { storeWords b.start vs s.begun with pc := s.pc + 4, lastUsrBank := true }) ∧
      (w = true → exec (.stmUsr c p u w rn list) s = .fault (.unpredictable .stmUsrWb)) ∧
      (w = false → s.cpsr.mode = .usr ∨ s.cpsr.mode = .sys →
        exec (.stmUsr c p u w rn list) s = .fault (.unpredictable .stmUsrInUsr)))) ∧
  (∀ (rd rm : Reg) (s : State), rd ≠ 15 → rm ≠ 15 → s.lastUsrBank = true →
    let i : Instr := .movRsi .al false 0 rd 0 .lsl rm
    (s.strict = true → (bankOf s.cpsr.mode rd ≠ .usr ∨ bankOf s.cpsr.mode rm ≠ .usr) →
      exec i s = .fault (.hazard .usrBankNext)) ∧
    (s.strict = false ∨ (bankOf s.cpsr.mode rd = .usr ∧ bankOf s.cpsr.mode rm = .usr) →
      exec i s = .next (after s (regsWith s rd (s.x rm)) s.cpsr (s.pc + 4)))) ∧
  (∀ (i : Instr) (s : State), s.lastUsrBank = true →
    let bankedAccess := ∃ r ∈ accesses i s, r ≠ 15 ∧ bankOf s.cpsr.mode r ≠ .usr
    (s.strict = true → i.WellFormed → (∀ c, condOf i = some c → condPassed c s.cpsr = true) → bankedAccess →
      exec i s = .fault (.hazard .usrBankNext)) ∧
    (s.strict = false ∨ ¬bankedAccess ∨ (∃ c, condOf i = some c ∧ condPassed c s.cpsr = false) →
      exec i s = exec i { s with lastUsrBank := false })) ∧
  (∀ (code : Code) (s : State), s.lastUsrBank = true →
    let passes := ∀ w : Word, code = .arm w → condPassed (condAt w 28) s.cpsr = true
    (s.strict = true → s.cpsr.mode = .und → passes → undecoded code s = .fault (.hazard .usrBankNext)) ∧
    (s.strict = false ∨ s.cpsr.mode ≠ .und ∨ ¬passes →
      undecoded code s = undecoded code { s with lastUsrBank := false }))

/-- R324: LDM with S = 1 and R15 listed loads the registers of the current bank, writes back unless the base is listed,
then restores the CPSR from the mode's SPSR and branches, aligned for the restored T; without an SPSR, or with one whose M
is no mode (R54), it stops the machine. -/
def Obligations.LdmReturns : Prop :=
  ∀ (c : Cond) (p u w : Bool) (rn : Reg) (list : BitVec 15) (s : State),
    Runs (.ldmRet c p u w rn list) s → rn ≠ 15 → (s.strict = false ∨ ¬(w = true ∧ list.getLsbD rn.toNat = true)) →
    let b := blockOf (s.x rn) p u (1#1 ++ list)
    let l := loadList b.start b.regs s.begun
    let g := regsListed s.cpsr.mode l.1 s.gpr
    (∀ (q : Psr) (cpsr : Cpsr), s.spsrOf s.cpsr.mode = some q → q.restored = some cpsr →
      ∃ v, loadedPc l.1 = some v ∧ exec (.ldmRet c p u w rn list) s = .next
        { l.2 with
          gpr := if w && !list.getLsbD rn.toNat then g.set (physReg s.cpsr.mode rn) b.after else g
          cpsr := cpsr
          pc := alignFor cpsr.t v }) ∧
    (s.cpsr.mode = .usr ∨ s.cpsr.mode = .sys →
      exec (.ldmRet c p u w rn list) s = .fault (.unpredictable .ldmRetNospsr)) ∧
    (∀ q : Psr, s.spsrOf s.cpsr.mode = some q → Mode.ofBits q.m = none →
      exec (.ldmRet c p u w rn list) s = .fault (.unpredictable .badMode))

/-- The stops the spec gives the ARM instructions beside those stated elsewhere: cases with no ARM7TDMI behaviour stop
every machine (R20, R212, R213, R300, R303 to R308, R310 to R314, R320).  Which case is named where several hold at once is
the model's choice (log entry 25). -/
def Obligations.UnpredictableStops : Prop :=
  (∀ (op : DpOp) (c : Cond) (sf : Bool) (sbz : BitVec 4) (rn rd : Reg) (sh : Shift) (rm : Reg) (s : State),
    Runs (dpRsrInstr op c sf sbz rn rd 15 sh rm) s →
    exec (dpRsrInstr op c sf sbz rn rd 15 sh rm) s = .fault (.unpredictable .dpRegshiftRsPc)) ∧
  (∀ (op : DpOp) (c : Cond) (sbz : BitVec 4) (rn : Reg) (rot : BitVec 4) (imm8 : BitVec 8) (amt : BitVec 5) (rs : Reg)
    (sh : Shift) (rm : Reg) (s : State) (i : Instr), op.writesRd = true → Runs i s →
    i = dpImmInstr op c true sbz rn 15 rot imm8 ∨ i = dpRsiInstr op c true sbz rn 15 amt sh rm ∨
      (i = dpRsrInstr op c true sbz rn 15 rs sh rm ∧ rs ≠ 15 ∧ s.strict = false) →
    (s.cpsr.mode = .usr ∨ s.cpsr.mode = .sys → exec i s = .fault (.unpredictable .dpSPcNospsr)) ∧
    (∀ q : Psr, s.spsrOf s.cpsr.mode = some q → Mode.ofBits q.m = none → exec i s = .fault (.unpredictable .badMode))) ∧
  (∀ (c : Cond) (p u w : Bool) (rn rd : Reg) (imm12 : BitVec 12) (amt : BitVec 5) (sh : Shift) (rm : Reg) (s : State),
    (p = false ∨ w = true → ∀ i ∈ [ldrImmInstr c p u w 15 rd imm12, ldrRegInstr c p u w 15 rd amt sh rm,
        strImmInstr c p u w 15 rd imm12, strRegInstr c p u w 15 rd amt sh rm, ldrbImmInstr c p u w 15 rd imm12,
        ldrbRegInstr c p u w 15 rd amt sh rm, strbImmInstr c p u w 15 rd imm12, strbRegInstr c p u w 15 rd amt sh rm],
      Runs i s → exec i s = .fault (.unpredictable .lsWbPc)) ∧
    ((p = false ∨ w = true → rn ≠ 15) →
      (∀ i ∈ [ldrRegInstr c p u w rn rd amt sh 15, strRegInstr c p u w rn rd amt sh 15,
          ldrbRegInstr c p u w rn rd amt sh 15, strbRegInstr c p u w rn rd amt sh 15],
        Runs i s → exec i s = .fault (.unpredictable .lsRmPc)) ∧
      (∀ i : Instr, i = ldrbImmInstr c p u w rn 15 imm12 ∨ (i = ldrbRegInstr c p u w rn 15 amt sh rm ∧ rm ≠ 15) →
        Runs i s → exec i s = .fault (.unpredictable .ldrbPc)) ∧
      (∀ i : Instr, i = strbImmInstr c p u w rn 15 imm12 ∨ (i = strbRegInstr c p u w rn 15 amt sh rm ∧ rm ≠ 15) →
        Runs i s → exec i s = .fault (.unpredictable .strbPc))) ∧
    (rn ≠ 15 → ∀ i : Instr, i = .ldrtImm c u rn 15 imm12 ∨ (i = .ldrtReg c u rn 15 amt sh rm ∧ rm ≠ 15) →
      Runs i s → exec i s = .fault (.unpredictable .ldrtPc))) ∧
  (∀ (c : Cond) (p u w : Bool) (rn rd : Reg) (immH immL sbz : BitVec 4) (rm : Reg) (s : State),
    (∀ i ∈ [.ldrhImm c false u true rn rd immH immL, .ldrhReg c false u true rn rd sbz rm,
        .ldrsbImm c false u true rn rd immH immL, .ldrsbReg c false u true rn rd sbz rm,
        .ldrshImm c false u true rn rd immH immL, .ldrshReg c false u true rn rd sbz rm,
        .strhImm c false u true rn rd immH immL, .strhReg c false u true rn rd sbz rm],
      Runs i s → exec i s = .fault (.unpredictable .ls3PostW)) ∧
    (p = w → ∀ i ∈ [.ldrhImm c p u w 15 rd immH immL, .ldrhReg c p u w 15 rd sbz rm, .ldrsbImm c p u w 15 rd immH immL,
        .ldrsbReg c p u w 15 rd sbz rm, .ldrshImm c p u w 15 rd immH immL, .ldrshReg c p u w 15 rd sbz rm,
        .strhImm c p u w 15 rd immH immL, .strhReg c p u w 15 rd sbz rm],
      Runs i s → exec i s = .fault (.unpredictable .lsWbPc)) ∧
    (p = true ∨ w = false → (p = w → rn ≠ 15) →
      (∀ i ∈ [.ldrhReg c p u w rn rd sbz 15, .ldrsbReg c p u w rn rd sbz 15, .ldrshReg c p u w rn rd sbz 15,
          .strhReg c p u w rn rd sbz 15],
        Runs i s → exec i s = .fault (.unpredictable .lsRmPc)) ∧
      (∀ i : Instr, i = .ldrhImm c p u w rn 15 immH immL ∨ (i = .ldrhReg c p u w rn 15 sbz rm ∧ rm ≠ 15) →
        Runs i s → exec i s = .fault (.unpredictable .ldrhPc)) ∧
      (∀ i : Instr, i = .ldrsbImm c p u w rn 15 immH immL ∨ (i = .ldrsbReg c p u w rn 15 sbz rm ∧ rm ≠ 15) →
        Runs i s → exec i s = .fault (.unpredictable .ldrsbPc)) ∧
      (∀ i : Instr, i = .ldrshImm c p u w rn 15 immH immL ∨ (i = .ldrshReg c p u w rn 15 sbz rm ∧ rm ≠ 15) →
        Runs i s → exec i s = .fault (.unpredictable .ldrshPc)))) ∧
  (∀ (c : Cond) (p u w : Bool) (list : BitVec 16) (list15 : BitVec 15) (s : State),
    ∀ i ∈ [.ldm c p u w 15 list, .stm c p u w 15 list, .ldmUsr c p u w 15 list15, .stmUsr c p u w 15 list,
        .ldmRet c p u w 15 list15],
      Runs i s → exec i s = .fault (.unpredictable .ldmStmPcBase))

/-- The cases to which the spec gives an ARM7TDMI behaviour stop a strict machine (R20), beside those stated elsewhere
(R212, R213, R300, R310 to R312, R314, R320 to R322, R455, R463, R467 to R470), as does a store into the two instruction
slots after it (R612); a store that leaves a DMA control register with the DRQ bit set stops every machine, and with source
control 11 a strict one (R540, R541).  Every storing instruction that reaches its store stops where the store does.
Two readings here are the model's, not the spec's: that a store reaches the window of R612 where both name one stored byte,
through a mirror too (log entry 27), and which name is reported where several cases hold at once (log entry 25). -/
def Obligations.StrictStops : Prop :=
  (∀ s : State, s.strict = true →
    (∀ (op : DpOp) (c : Cond) (sf : Bool) (sbz : BitVec 4) (rn rd rs : Reg) (sh : Shift) (rm : Reg), rs ≠ 15 →
      (op.readsRn = true ∧ rn = 15) ∨ (op.writesRd = true ∧ rd = 15) ∨ rm = 15 →
      Runs (dpRsrInstr op c sf sbz rn rd rs sh rm) s →
      exec (dpRsrInstr op c sf sbz rn rd rs sh rm) s = .fault (.unpredictable .dpRegshiftPc)) ∧
    (∀ (op : DpOp) (c : Cond) (sf : Bool) (sbz : BitVec 4) (rn : Reg) (rot : BitVec 4) (imm8 : BitVec 8) (amt : BitVec 5)
      (sh : Shift) (rm : Reg) (i : Instr) (r : Word), op.writesRd = true → Runs i s →
      (i = dpImmInstr op c sf sbz rn 15 rot imm8 ∧
          r = (op.apply (s.armX rn) (immShifted rot imm8 s.cpsr.c) s.cpsr).value) ∨
        (i = dpRsiInstr op c sf sbz rn 15 amt sh rm ∧
          r = (op.apply (s.armX rn) (shiftByImm sh (s.armX rm) amt s.cpsr.c) s.cpsr).value) →
      (sf = false → align4 r ≠ r → exec i s = .fault (.unpredictable .armPcUnaligned)) ∧
      (∀ (p : Psr) (q : Cpsr), sf = true → s.spsrOf s.cpsr.mode = some p → p.restored = some q → alignFor q.t r ≠ r →
        exec i s = .fault (.unpredictable .retPcUnaligned))) ∧
    (∀ (c : Cond) (p u w : Bool) (rd : Reg) (imm12 : BitVec 12) (amt : BitVec 5) (sh : Shift) (rm : Reg),
      p = false ∨ w = true → rd ≠ 15 → rm ≠ 15 →
      (∀ i ∈ [ldrImmInstr c p u w rd rd imm12, ldrRegInstr c p u w rd rd amt sh rm, ldrbImmInstr c p u w rd rd imm12,
          ldrbRegInstr c p u w rd rd amt sh rm], Runs i s → exec i s = .fault (.unpredictable .ldrWbRd)) ∧
      (∀ i ∈ [strImmInstr c p u w rd rd imm12, strRegInstr c p u w rd rd amt sh rm, strbImmInstr c p u w rd rd imm12,
          strbRegInstr c p u w rd rd amt sh rm], Runs i s → exec i s = .fault (.unpredictable .strWbRd))) ∧
    (∀ (c : Cond) (p u w : Bool) (rn rd : Reg) (immH immL sbz : BitVec 4) (rm : Reg), p = true ∨ w = false →
      (p = w → rn ≠ 15) → rm ≠ 15 →
      ∀ (off : Word) (imm : Bool), off = (if imm then offsetHalf immH immL else s.x rm) →
      let odd := (addressOf (s.armX rn) off p u w).addr.getLsbD 0
      let strh : Instr := if imm then .strhImm c p u w rn rd immH immL else .strhReg c p u w rn rd sbz rm
      let ldrh : Instr := if imm then .ldrhImm c p u w rn rd immH immL else .ldrhReg c p u w rn rd sbz rm
      let ldrsb : Instr := if imm then .ldrsbImm c p u w rn rd immH immL else .ldrsbReg c p u w rn rd sbz rm
      let ldrsh : Instr := if imm then .ldrshImm c p u w rn rd immH immL else .ldrshReg c p u w rn rd sbz rm
      (Runs strh s → rd = 15 → exec strh s = .fault (.unpredictable .strhPc)) ∧
      (rd ≠ 15 →
        (Runs strh s → odd = true → exec strh s = .fault (.unpredictable .strhUnaligned)) ∧
        (Runs strh s → odd = false → p = w → rn = rd → exec strh s = .fault (.unpredictable .strWbRd)) ∧
        (Runs ldrh s → odd = true → exec ldrh s = .fault (.unpredictable .ldrhUnaligned)) ∧
        (Runs ldrh s → odd = false → p = w → rn = rd → exec ldrh s = .fault (.unpredictable .ldrWbRd)) ∧
        (Runs ldrsb s → p = w → rn = rd → exec ldrsb s = .fault (.unpredictable .ldrWbRd)) ∧
        (Runs ldrsh s → odd = true → exec ldrsh s = .fault (.unpredictable .ldrshUnaligned)) ∧
        (Runs ldrsh s → odd = false → p = w → rn = rd → exec ldrsh s = .fault (.unpredictable .ldrWbRd)))) ∧
    (∀ (c : Cond) (p u w : Bool) (rn : Reg) (list : BitVec 16) (list15 : BitVec 15), rn ≠ 15 →
      (∀ i ∈ [.ldm c p u w rn 0, .stm c p u w rn 0, .ldmUsr c p u w rn 0, .stmUsr c p u w rn 0],
        Runs i s → exec i s = .fault (.unpredictable .ldmStmEmpty)) ∧
      (list.getLsbD rn.toNat = true → Runs (.ldm c p u true rn list) s →
        exec (.ldm c p u true rn list) s = .fault (.unpredictable .ldmWbBaseInList)) ∧
      (list15.getLsbD rn.toNat = true → Runs (.ldmRet c p u true rn list15) s →
        exec (.ldmRet c p u true rn list15) s = .fault (.unpredictable .ldmWbBaseInList)) ∧
      (list.getLsbD rn.toNat = true → (regList list).head? ≠ some rn → Runs (.stm c p u true rn list) s →
        exec (.stm c p u true rn list) s = .fault (.unpredictable .stmWbBaseNotLowest))) ∧
    (∀ (rb : LowReg) (list : BitVec 8),
      (s.lastUsrBank = false → ∀ i ∈ [.tPush false 0, .tPop false 0, .tStmia rb 0, .tLdmia rb 0],
        exec i s = .fault (.unpredictable .tEmptyList)) ∧
      (list.getLsbD rb.toNat = true → (regList list).head? ≠ some (low rb) →
        exec (.tStmia rb list) s = .fault (.unpredictable .stmWbBaseNotLowest))) ∧
    (∀ (ro rb rd : LowReg) (off5 : BitVec 5),
      ((s.x (low rb) + s.x (low ro)).getLsbD 0 = true →
        exec (.tStrhReg ro rb rd) s = .fault (.unpredictable .strhUnaligned)) ∧
      ((s.x (low rb)).getLsbD 0 = true → exec (.tStrhImm off5 rb rd) s = .fault (.unpredictable .strhUnaligned)))) ∧
  (∀ (a v : Word) (w : Width) (s : State),
    (s.strict = true → hitsPrefetch a w s = true → cpuWrite a w v s = .error (.hazard .smcPrefetch)) ∧
    (s.strict = false ∨ hitsPrefetch a w s = false →
      (∀ n : Fin 4, touchesDmaCtl s.bus n a w = true → (busWrite a w v s).dev.dma[n].armed = true →
        (n = 3 ∧ (busWrite a w v s).dev.dma[n].ctl.getLsbD 11 = true) ∨
          (s.strict = true ∧ (busWrite a w v s).dev.dma[n].srcCtl = 3) →
        ∃ case, (case = .dmaDrq ∨ case = .dmaSrcCtl3) ∧ cpuWrite a w v s = .error (.unpredictable case))) ∧
    ((w = .byte → byteWriteAt a s ≠ .both) →
      (hitsPrefetch a w s = true ↔ ∃ x < w.bytes, ∃ k < (if s.cpsr.t then 4 else 8),
        cell s.bus (a + BitVec.ofNat 32 x) = cell s.bus (s.pc + (if s.cpsr.t then 2 else 4) + BitVec.ofNat 32 k))) ∧
    (∀ n : Fin 4, a.toNat + w.bytes ≤ 2 ^ 32 → (touchesDmaCtl Bus.gba n a w = true ↔
      a.toNat < 0x040000BC + 12 * n.val ∧ 0x040000BA + 12 * n.val < a.toNat + w.bytes))) ∧
  (∀ (c : Cond) (p u w : Bool) (rn rd : Reg) (s : State) (e : Fault),
    (∀ (imm : Bool) (imm12 : BitVec 12) (amt : BitVec 5) (sh : Shift) (rm : Reg), (imm = false → rm ≠ 15) →
      let a := addressOf (s.armX rn) (if imm then offset12 imm12 else offsetReg s rm sh amt) p u w
      let str := if imm then strImmInstr c p u w rn rd imm12 else strRegInstr c p u w rn rd amt sh rm
      let strb := if imm then strbImmInstr c p u w rn rd imm12 else strbRegInstr c p u w rn rd amt sh rm
      (a.writeBack = true → rn ≠ 15) → (s.strict = false ∨ ¬(a.writeBack = true ∧ rn = rd)) →
      (Runs str s → cpuWrite (align4 a.addr) .word (s.armX12 rd) s.begun = .error e → exec str s = .fault e) ∧
      (Runs strb s → rd ≠ 15 → cpuWrite a.addr .byte (s.x rd) s.begun = .error e → exec strb s = .fault e)) ∧
    (∀ (imm : Bool) (immH immL sbz : BitVec 4) (rm : Reg), (imm = false → rm ≠ 15) → (p = true ∨ w = false) →
      let a := addressOf (s.armX rn) (if imm then offsetHalf immH immL else s.x rm) p u w
      let strh : Instr := if imm then .strhImm c p u w rn rd immH immL else .strhReg c p u w rn rd sbz rm
      (a.writeBack = true → rn ≠ 15) →
      (s.strict = false ∨ (¬(a.writeBack = true ∧ rn = rd) ∧ rd ≠ 15 ∧ a.addr.getLsbD 0 = false)) →
      Runs strh s → cpuWrite (align2 a.addr) .half (s.armX12 rd) s.begun = .error e → exec strh s = .fault e) ∧
    (∀ (sbz : BitVec 4) (rm : Reg), 15 ∉ [rd, rm, rn] → rn ≠ rm → rn ≠ rd →
      (Runs (.swp c rn rd sbz rm) s →
        cpuWrite (align4 (s.x rn)) .word (s.x rm) (loadRotated (s.x rn) s.begun).2 = .error e →
        exec (.swp c rn rd sbz rm) s = .fault e) ∧
      (Runs (.swpb c rn rd sbz rm) s → cpuWrite (s.x rn) .byte (s.x rm) (cpuRead (s.x rn) .byte s.begun).2 = .error e →
        exec (.swpb c rn rd sbz rm) s = .fault e)) ∧
    (∀ list : BitVec 16, rn ≠ 15 → s.strict = false ∨ list ≠ 0 →
      let b := blockOf (s.x rn) p u list
      let moved := w = true ∧ list.getLsbD rn.toNat = true ∧ (regList list).head? ≠ some rn
      (Runs (.stm c p u w rn list) s → s.strict = false ∨ ¬moved →
        StoresStop b.start
          (b.regs.map fun r => if r = 15 then s.pc + 12 else if moved ∧ r = rn then b.after else s.x r) s.begun e →
        exec (.stm c p u w rn list) s = .fault e) ∧
      (Runs (.stmUsr c p u false rn list) s → s.cpsr.mode ≠ .usr → s.cpsr.mode ≠ .sys →
        StoresStop b.start (b.regs.map fun r => if r = 15 then s.pc + 12 else s.xUsr r) s.begun e →
        exec (.stmUsr c p u false rn list) s = .fault e))) ∧
  (∀ (s : State) (rb ro rd : LowReg) (off5 : BitVec 5) (word8 : BitVec 8) (e : Fault),
    let v := s.x (low rd)
    let stops (i : Instr) (a : Word) (w : Width) := cpuWrite a w v s.begun = .error e → exec i s = .fault e
    stops (.tStrReg ro rb rd) (align4 (s.x (low rb) + s.x (low ro))) .word ∧
    stops (.tStrbReg ro rb rd) (s.x (low rb) + s.x (low ro)) .byte ∧
    ((s.strict = false ∨ (s.x (low rb) + s.x (low ro)).getLsbD 0 = false) →
      stops (.tStrhReg ro rb rd) (align2 (s.x (low rb) + s.x (low ro))) .half) ∧
    stops (.tStrImm off5 rb rd) (align4 (s.x (low rb) + off5.zeroExtend 32 * 4)) .word ∧
    stops (.tStrbImm off5 rb rd) (s.x (low rb) + off5.zeroExtend 32) .byte ∧
    ((s.strict = false ∨ (s.x (low rb) + off5.zeroExtend 32 * 2).getLsbD 0 = false) →
      stops (.tStrhImm off5 rb rd) (align2 (s.x (low rb) + off5.zeroExtend 32 * 2)) .half) ∧
    ((s.strict = false ∨ s.lastUsrBank = false) →
      stops (.tStrSp rd word8) (align4 (s.x 13 + word8.zeroExtend 32 * 4)) .word)) ∧
  (∀ (s : State) (r : Bool) (rb : LowReg) (list : BitVec 8) (e : Fault),
    let regs := regList list ++ (if r then [14] else [])
    let other := list.getLsbD rb.toNat = true ∧ (regList list).head? ≠ some (low rb)
    let new := s.x (low rb) + (if list = 0 then 0x40 else BitVec.ofNat 32 (4 * (regList list).length))
    ((s.strict = false ∨ (s.lastUsrBank = false ∧ (r = true ∨ list ≠ 0))) →
      StoresStop (s.x 13 - (if regs = [] then 0x40 else BitVec.ofNat 32 (4 * regs.length)))
        ((if regs = [] then [15] else regs).map fun k => if k = 15 then s.pc + 6 else s.x k) s.begun e →
      exec (.tPush r list) s = .fault e) ∧
    ((s.strict = false ∨ (list ≠ 0 ∧ ¬other)) →
      StoresStop (s.x (low rb)) ((if list = 0 then [15] else regList list).map fun k =>
        if other ∧ k = low rb then new else if k = 15 then s.pc + 6 else s.x k) s.begun e →
      exec (.tStmia rb list) s = .fault e))

-- Branches, the software interrupt, the undefined space and the coprocessor

/-- R350, R351: `B`, and `BL`, which writes R14 of the current mode. -/
def Obligations.BranchResults : Prop :=
  ∀ (c : Cond) (off : BitVec 24) (s : State),
    (Runs (.b c off) s →
      exec (.b c off) s = .next (after s s.gpr s.cpsr (s.pc + 8 + off.signExtend 32 * 4))) ∧
    (Runs (.bl c off) s →
      exec (.bl c off) s = .next (after s (regsWith s 14 (s.pc + 4)) s.cpsr (s.pc + 8 + off.signExtend 32 * 4)))

/-- R352, R433: BX in both sets takes T from bit 0 of the register, R15 read as pc + 8 or pc + 4, and aligns the target
for the new state; a strict machine stops an ARM target with bit 1 set. -/
def Obligations.BranchExchangeResults : Prop :=
  (∀ (c : Cond) (sbo : BitVec 12) (rm : Reg) (s : State), Runs (.bx c sbo rm) s →
    let v := if rm = 15 then s.pc + 8 else s.x rm
    (s.strict = false ∨ v.getLsbD 0 = true ∨ v.getLsbD 1 = false →
      exec (.bx c sbo rm) s = .next (after s s.gpr { s.cpsr with t := v.getLsbD 0 } (alignFor (v.getLsbD 0) v))) ∧
    (s.strict = true → v.getLsbD 0 = false → v.getLsbD 1 = true →
      exec (.bx c sbo rm) s = .fault (.unpredictable .bxArmUnaligned))) ∧
  (∀ (sbzA : BitVec 1) (h2 : Bool) (rs : LowReg) (sbzB : BitVec 3) (s : State), Runs (.tBx sbzA h2 rs sbzB) s →
    let v := if high h2 rs = 15 then s.pc + 4 else s.x (high h2 rs)
    (s.strict = false ∨ v.getLsbD 0 = true ∨ v.getLsbD 1 = false →
      exec (.tBx sbzA h2 rs sbzB) s =
        .next (after s s.gpr { s.cpsr with t := v.getLsbD 0 } (alignFor (v.getLsbD 0) v))) ∧
    (s.strict = true → v.getLsbD 0 = false → v.getLsbD 1 = true →
      exec (.tBx sbzA h2 rs sbzB) s = .fault (.unpredictable .bxArmUnaligned)))

/-- R355, R366, R473, R477, R502, R504: SWI in both sets, a word of the undefined space and a word of no row take their
exception with the link of the next instruction, whatever their other fields; an ARM word of no row whose condition fails
only advances the pc, and one with cond = 1111 stops a strict machine. -/
def Obligations.ExceptionInstructions : Prop :=
  (∀ (c : Cond) (comment : BitVec 24) (s : State), Runs (.swi c comment) s →
    exec (.swi c comment) s = .next (takeExceptionWithLink .softwareInterrupt (s.pc + 4) s.begun)) ∧
  (∀ (value8 : BitVec 8) (s : State), Runs (.tSwi value8) s →
    exec (.tSwi value8) s = .next (takeExceptionWithLink .softwareInterrupt (s.pc + 2) s.begun)) ∧
  (∀ (c : Cond) (hi : BitVec 20) (lo : BitVec 4) (s : State), Runs (.und c hi lo) s →
    exec (.und c hi lo) s = .next (takeExceptionWithLink .undefined (s.pc + 4) s.begun)) ∧
  (∀ (w : BitVec 32) (s : State), (s.strict = false ∨ s.lastUsrBank = false) →
    condPassed (condAt w 28) s.cpsr = true →
    undecoded (.arm w) s = .next (takeExceptionWithLink .undefined (s.pc + 4) s.begun)) ∧
  (∀ (w : BitVec 32) (s : State), condAt w 28 ≠ .nv → condPassed (condAt w 28) s.cpsr = false →
    undecoded (.arm w) s = .next (after s s.gpr s.cpsr (s.pc + 4))) ∧
  (∀ (w : BitVec 32) (s : State), condAt w 28 = .nv →
    undecoded (.arm w) s =
      if s.strict then .fault (.unpredictable .condNv) else .next (after s s.gpr s.cpsr (s.pc + 4))) ∧
  (∀ (h : BitVec 16) (s : State), s.strict = false ∨ s.lastUsrBank = false →
    undecoded (.thumb h) s = .next (takeExceptionWithLink .undefined (s.pc + 2) s.begun))

/-- R360 to R365: a coprocessor instruction only advances the pc with CP_MODE = nop and raises Undefined with CP_MODE =
undefined, whatever its operands and its coprocessor number. -/
def Obligations.CoprocessorStub : Prop :=
  ∀ (i : Instr) (s : State), Runs i s →
    ((∃ c op1 crn crd cp op2 crm, i = .cdp c op1 crn crd cp op2 crm) ∨
      (∃ c p u n w rn crd cp off8, i = .ldc c p u n w rn crd cp off8 ∨ i = .stc c p u n w rn crd cp off8) ∨
      (∃ c op1 crn rd cp op2 crm, i = .mcr c op1 crn rd cp op2 crm ∨ i = .mrc c op1 crn rd cp op2 crm)) →
    exec i s = match s.params.cp with
      | .nop => .next (after s s.gpr s.cpsr (s.pc + 4))
      | .undefined => .next (takeExceptionWithLink .undefined (s.pc + 4) s.begun)

-- Thumb

/-- R401 to R403, R414 to R416, R419: the shifts write Rd, N, Z and the shifter's C.  R408, R412, R413, R420, R424, R426,
R427: the moves and logical instructions write Rd, but for TST, and N and Z.  R425: MUL writes the product, N and Z, and C
is a free bit (D22, log entry 8); a strict machine stops Rd = Rs. -/
def Obligations.ThumbShiftsAndLogic : Prop :=
  ∀ (s : State) (rs rd : LowReg),
    let d := s.x (low rd)
    let m := s.x (low rs)
    let shifted (r : Shifted) := Host.Outcome.next (thumbAfter s rd r.value (flagsWith s r.value r.carry s.cpsr.v))
    let logic (v : Word) := Host.Outcome.next (thumbAfter s rd v (flagsWith s v s.cpsr.c s.cpsr.v))
    (∀ off5, exec (.tLslImm off5 rs rd) s = shifted (shiftByImm .lsl m off5 s.cpsr.c)) ∧
    (∀ off5, exec (.tLsrImm off5 rs rd) s = shifted (shiftByImm .lsr m off5 s.cpsr.c)) ∧
    (∀ off5, exec (.tAsrImm off5 rs rd) s = shifted (shiftByImm .asr m off5 s.cpsr.c)) ∧
    exec (.tLslReg rs rd) s = shifted (shiftByReg .lsl d (m.extractLsb' 0 8) s.cpsr.c) ∧
    exec (.tLsrReg rs rd) s = shifted (shiftByReg .lsr d (m.extractLsb' 0 8) s.cpsr.c) ∧
    exec (.tAsrReg rs rd) s = shifted (shiftByReg .asr d (m.extractLsb' 0 8) s.cpsr.c) ∧
    exec (.tRor rs rd) s = shifted (shiftByReg .ror d (m.extractLsb' 0 8) s.cpsr.c) ∧
    (∀ imm8 : BitVec 8, exec (.tMovImm rd imm8) s = logic (imm8.zeroExtend 32)) ∧
    exec (.tAnd rs rd) s = logic (d &&& m) ∧
    exec (.tEor rs rd) s = logic (d ^^^ m) ∧
    exec (.tOrr rs rd) s = logic (d ||| m) ∧
    exec (.tBic rs rd) s = logic (d &&& ~~~m) ∧
    exec (.tMvn rs rd) s = logic (~~~m) ∧
    exec (.tTst rs rd) s = .next (after s s.gpr (flagsWith s (d &&& m) s.cpsr.c s.cpsr.v) (s.pc + 2)) ∧
    (s.strict = false ∨ rd ≠ rs → exec (.tMul rs rd) s = .next
      { thumbAfter s rd (BitVec.ofNat 32 (m.toNat * d.toNat))
          (flagsWith s (BitVec.ofNat 32 (m.toNat * d.toNat)) (Config.freeBit s.draws) s.cpsr.v)
        with draws := s.draws + 1 }) ∧
    (s.strict = true → exec (.tMul rd rd) s = .fault (.unpredictable .tMulRdRm))

/-- R404 to R407, R409 to R411, R417, R418, R421 to R423: the Thumb additions, subtractions and compares of low registers
write Rd, but for the compares, and N, Z, C and V of exact integers. -/
def Obligations.ThumbArithmetic : Prop :=
  ∀ (s : State) (rs rd : LowReg),
    let d := s.x (low rd)
    let m := s.x (low rs)
    let c := s.cpsr.c
    let add (a b : Word) (k : Bool) := Host.Outcome.next (thumbAfter s rd (a + b + BitVec.ofNat 32 k.toNat)
      (flagsWith s (a + b + BitVec.ofNat 32 k.toNat) (carryOf a b k) (overflowOf a b k)))
    let sub (a b : Word) (k : Bool) := Host.Outcome.next (thumbAfter s rd (a - b - BitVec.ofNat 32 (1 - k.toNat))
      (flagsWith s (a - b - BitVec.ofNat 32 (1 - k.toNat)) (noBorrow a b k) (overflowSub a b k)))
    let compare (a b : Word) := Host.Outcome.next (after s s.gpr
      (flagsWith s (a - b) (noBorrow a b true) (overflowSub a b true)) (s.pc + 2))
    (∀ rn, exec (.tAddReg rn rs rd) s = add m (s.x (low rn)) false) ∧
    (∀ rn, exec (.tSubReg rn rs rd) s = sub m (s.x (low rn)) true) ∧
    (∀ imm3 : BitVec 3, exec (.tAddImm3 imm3 rs rd) s = add m (imm3.zeroExtend 32) false) ∧
    (∀ imm3 : BitVec 3, exec (.tSubImm3 imm3 rs rd) s = sub m (imm3.zeroExtend 32) true) ∧
    (∀ imm8 : BitVec 8, exec (.tAddImm8 rd imm8) s = add d (imm8.zeroExtend 32) false) ∧
    (∀ imm8 : BitVec 8, exec (.tSubImm8 rd imm8) s = sub d (imm8.zeroExtend 32) true) ∧
    (∀ imm8 : BitVec 8, exec (.tCmpImm rd imm8) s = compare d (imm8.zeroExtend 32)) ∧
    exec (.tAdc rs rd) s = add d m c ∧
    exec (.tSbc rs rd) s = sub d m c ∧
    exec (.tNeg rs rd) s = sub 0 m true ∧
    exec (.tCmpReg rs rd) s = compare d m ∧
    exec (.tCmn rs rd) s = .next (after s s.gpr
      (flagsWith s (d + m) (carryOf d m false) (overflowOf d m false)) (s.pc + 2))

/-- R429 to R432, R435 to R437: the high-register forms, R15 read as pc + 4 and written as a branch that stays in Thumb
state, and the addresses made from the pc and the stack pointer.  A strict machine stops two low registers. -/
def Obligations.ThumbHighAndAddresses : Prop :=
  (∀ (h1 h2 : Bool) (rs rd : LowReg) (s : State), s.strict = false ∨ (s.lastUsrBank = false ∧ (h1 = true ∨ h2 = true)) →
    let d := if high h1 rd = 15 then s.pc + 4 else s.x (high h1 rd)
    let m := if high h2 rs = 15 then s.pc + 4 else s.x (high h2 rs)
    (high h1 rd ≠ 15 →
      exec (.tAddHi h1 h2 rs rd) s = .next (after s (regsWith s (high h1 rd) (d + m)) s.cpsr (s.pc + 2)) ∧
      exec (.tMovHi h1 h2 rs rd) s = .next (after s (regsWith s (high h1 rd) m) s.cpsr (s.pc + 2))) ∧
    (high h1 rd = 15 →
      exec (.tAddHi h1 h2 rs rd) s = .next (after s s.gpr s.cpsr (align2 (d + m))) ∧
      exec (.tMovHi h1 h2 rs rd) s = .next (after s s.gpr s.cpsr (align2 m))) ∧
    exec (.tCmpHi h1 h2 rs rd) s = .next (after s s.gpr
      (flagsWith s (d - m) (noBorrow d m true) (overflowSub d m true)) (s.pc + 2))) ∧
  (∀ (rs rd : LowReg) (s : State), s.strict = true →
    exec (.tAddHi false false rs rd) s = .fault (.unpredictable .t5LoLo) ∧
    exec (.tCmpHi false false rs rd) s = .fault (.unpredictable .t5LoLo) ∧
    exec (.tMovHi false false rs rd) s = .fault (.unpredictable .t5LoLo)) ∧
  (∀ (rd : LowReg) (word8 : BitVec 8) (s : State),
    exec (.tAddPc rd word8) s = .next (thumbAfter s rd (align4 (s.pc + 4) + word8.zeroExtend 32 * 4) s.cpsr)) ∧
  (∀ (rd : LowReg) (word8 : BitVec 8) (s : State), s.strict = false ∨ s.lastUsrBank = false →
    exec (.tAddSp rd word8) s = .next (thumbAfter s rd (s.x 13 + word8.zeroExtend 32 * 4) s.cpsr)) ∧
  (∀ (sword7 : BitVec 7) (s : State), s.strict = false ∨ s.lastUsrBank = false →
    exec (.tAddSpImm false sword7) s =
      .next (after s (regsWith s 13 (s.x 13 + sword7.zeroExtend 32 * 4)) s.cpsr (s.pc + 2)) ∧
    exec (.tAddSpImm true sword7) s =
      .next (after s (regsWith s 13 (s.x 13 - sword7.zeroExtend 32 * 4)) s.cpsr (s.pc + 2)))

/-- R450, R453, R454, R456 to R458, R460, R462, R464, R466: the Thumb loads; a strict machine stops a halfword at an odd
address. -/
def Obligations.ThumbLoads : Prop :=
  ∀ (s : State) (rd : LowReg),
    let load (l : Word × State) := Host.Outcome.next { l.2 with gpr := regsWith s (low rd) l.1, pc := s.pc + 2 }
    (∀ word8 : BitVec 8, exec (.tLdrPc rd word8) s =
      load (cpuRead (align4 (s.pc + 4) + word8.zeroExtend 32 * 4) .word s.begun)) ∧
    (∀ ro rb : LowReg,
      let a := s.x (low rb) + s.x (low ro)
      exec (.tLdrReg ro rb rd) s = load (loadRotated a s.begun) ∧
      exec (.tLdrbReg ro rb rd) s = load (cpuRead a .byte s.begun) ∧
      exec (.tLdsb ro rb rd) s = load (loadByteSigned a s.begun) ∧
      (s.strict = false ∨ a.getLsbD 0 = false →
        exec (.tLdrhReg ro rb rd) s = load (loadHalfRotated a s.begun) ∧
        exec (.tLdsh ro rb rd) s = load (loadHalfSigned a s.begun)) ∧
      (s.strict = true → a.getLsbD 0 = true →
        exec (.tLdrhReg ro rb rd) s = .fault (.unpredictable .ldrhUnaligned) ∧
        exec (.tLdsh ro rb rd) s = .fault (.unpredictable .ldrshUnaligned))) ∧
    (∀ (off5 : BitVec 5) (rb : LowReg),
      exec (.tLdrImm off5 rb rd) s = load (loadRotated (s.x (low rb) + off5.zeroExtend 32 * 4) s.begun) ∧
      exec (.tLdrbImm off5 rb rd) s = load (cpuRead (s.x (low rb) + off5.zeroExtend 32) .byte s.begun) ∧
      (s.strict = false ∨ (s.x (low rb)).getLsbD 0 = false →
        exec (.tLdrhImm off5 rb rd) s = load (loadHalfRotated (s.x (low rb) + off5.zeroExtend 32 * 2) s.begun)) ∧
      (s.strict = true → (s.x (low rb)).getLsbD 0 = true →
        exec (.tLdrhImm off5 rb rd) s = .fault (.unpredictable .ldrhUnaligned))) ∧
    (∀ word8 : BitVec 8, s.strict = false ∨ s.lastUsrBank = false →
      exec (.tLdrSp rd word8) s = load (loadRotated (s.x 13 + word8.zeroExtend 32 * 4) s.begun))

/-- R451, R452, R455, R459, R461, R463, R465: the Thumb stores, a word to its aligned word and a halfword to its aligned
halfword. -/
def Obligations.ThumbStores : Prop :=
  ∀ (s : State) (rd : LowReg),
    let v := s.x (low rd)
    let store (a : Word) (w : Width) := Host.Outcome.next { busWrite a w v s.begun with pc := s.pc + 2 }
    (∀ ro rb : LowReg,
      let a := s.x (low rb) + s.x (low ro)
      (StoreRuns (align4 a) .word v s.begun → exec (.tStrReg ro rb rd) s = store (align4 a) .word) ∧
      (StoreRuns a .byte v s.begun → exec (.tStrbReg ro rb rd) s = store a .byte) ∧
      (s.strict = false ∨ a.getLsbD 0 = false → StoreRuns (align2 a) .half v s.begun →
        exec (.tStrhReg ro rb rd) s = store (align2 a) .half)) ∧
    (∀ (off5 : BitVec 5) (rb : LowReg),
      (let a := s.x (low rb) + off5.zeroExtend 32 * 4;
        StoreRuns (align4 a) .word v s.begun → exec (.tStrImm off5 rb rd) s = store (align4 a) .word) ∧
      (let a := s.x (low rb) + off5.zeroExtend 32;
        StoreRuns a .byte v s.begun → exec (.tStrbImm off5 rb rd) s = store a .byte) ∧
      (let a := s.x (low rb) + off5.zeroExtend 32 * 2;
        s.strict = false ∨ a.getLsbD 0 = false → StoreRuns (align2 a) .half v s.begun →
          exec (.tStrhImm off5 rb rd) s = store (align2 a) .half)) ∧
    (∀ word8 : BitVec 8, s.strict = false ∨ s.lastUsrBank = false →
      let a := s.x 13 + word8.zeroExtend 32 * 4
      StoreRuns (align4 a) .word v s.begun → exec (.tStrSp rd word8) s = store (align4 a) .word)

/-- R467 to R470: PUSH, POP, STMIA and LDMIA over the registers of their list in ascending order, the base moved by 4 for
each; an empty list, which a strict machine stops, moves R15 alone, stored as pc + 6, and the base by 0x40. -/
def Obligations.ThumbBlockTransfers : Prop :=
  ∀ s : State,
    (∀ (r : Bool) (list : BitVec 8), s.strict = false ∨ (s.lastUsrBank = false ∧ (r = true ∨ list ≠ 0)) →
      let regs := regList list ++ (if r then [14] else [])
      let moved := if regs = [] then [15] else regs
      let base := s.x 13 - (if regs = [] then 0x40 else BitVec.ofNat 32 (4 * regs.length))
      let vs := moved.map fun k => if k = 15 then s.pc + 6 else s.x k
      StoresRun base vs s.begun →
      exec (.tPush r list) s = .next { storeWords base vs s.begun with gpr := regsWith s 13 base, pc := s.pc + 2 }) ∧
    (∀ (r : Bool) (list : BitVec 8), s.strict = false ∨ (s.lastUsrBank = false ∧ (r = true ∨ list ≠ 0)) →
      let regs := regList list ++ (if r then [15] else [])
      let l := loadList (s.x 13) (if regs = [] then [15] else regs) s.begun
      exec (.tPop r list) s = .next
        { l.2 with
          gpr := (regsListed s.cpsr.mode l.1 s.gpr).set (physReg s.cpsr.mode 13)
            (s.x 13 + (if regs = [] then 0x40 else BitVec.ofNat 32 (4 * regs.length)))
          pc := match loadedPc l.1 with
            | some v => align2 v
            | none => s.pc + 2 }) ∧
    (∀ (rb : LowReg) (list : BitVec 8),
      let regs := regList list
      let other := list.getLsbD rb.toNat = true ∧ regs.head? ≠ some (low rb)
      let new := s.x (low rb) + (if list = 0 then 0x40 else BitVec.ofNat 32 (4 * regs.length))
      let vs := (if list = 0 then [15] else regs).map fun k =>
        if other ∧ k = low rb then new else if k = 15 then s.pc + 6 else s.x k
      s.strict = false ∨ (list ≠ 0 ∧ ¬other) → StoresRun (s.x (low rb)) vs s.begun →
      exec (.tStmia rb list) s = .next
        { storeWords (s.x (low rb)) vs s.begun with gpr := regsWith s (low rb) new, pc := s.pc + 2 }) ∧
    (∀ (rb : LowReg) (list : BitVec 8), s.strict = false ∨ list ≠ 0 →
      let l := loadList (s.x (low rb)) (if list = 0 then [15] else regList list) s.begun
      let g := regsListed s.cpsr.mode l.1 s.gpr
      let new := s.x (low rb) + (if list = 0 then 0x40 else BitVec.ofNat 32 (4 * (regList list).length))
      exec (.tLdmia rb list) s = .next
        { l.2 with
          gpr := if list.getLsbD rb.toNat then g else g.set (physReg s.cpsr.mode (low rb)) new
          pc := match loadedPc l.1 with
            | some v => align2 v
            | none => s.pc + 2 })

/-- R472, R474 to R476: the Thumb branches, and the two halves of BL. -/
def Obligations.ThumbBranches : Prop :=
  (∀ (cond : Cond) (soff8 : BitVec 8) (s : State),
    exec (.tBCond cond soff8) s = .next (after s s.gpr s.cpsr
      (if condPassed cond s.cpsr then s.pc + 4 + soff8.signExtend 32 * 2 else s.pc + 2))) ∧
  (∀ (off11 : BitVec 11) (s : State),
    exec (.tB off11) s = .next (after s s.gpr s.cpsr (s.pc + 4 + off11.signExtend 32 * 2))) ∧
  (∀ (off11 : BitVec 11) (s : State), s.strict = false ∨ s.lastUsrBank = false →
    exec (.tBlHi off11) s =
      .next (after s (regsWith s 14 (s.pc + 4 + off11.signExtend 32 * 4096)) s.cpsr (s.pc + 2)) ∧
    exec (.tBlLo off11) s =
      .next (after s (regsWith s 14 ((s.pc + 2) ||| 1)) s.cpsr (align2 (s.x 14 + off11.zeroExtend 32 * 2))))

-- Frames

/-- Every byte of memory keeps its value under every instruction, except the bytes it stores to, at the addresses
`storesTo` computes from the state before. -/
def Obligations.MemoryFrame : Prop :=
  ∀ (i : Instr) (s t : State), exec i s = .next t → ∀ n : Nat, n ∉ storesTo i s → t.mem.read n = s.mem.read n

/-- Every general register of every bank keeps its value under every instruction, except its destinations, a base it
writes back, its link, and R14 of the mode an exception enters. -/
def Obligations.RegisterFrame : Prop :=
  ∀ (i : Instr) (s t : State), exec i s = .next t → ∀ k : Fin 30, k ∉ writesRegs i s → t.gpr[k] = s.gpr[k]

/-- What every instruction leaves of the status: the whole CPSR, or all but the flags, and the saved status registers,
except where its rule writes them; the devices, unless it stores to the I/O region; and the parameters and the model's
own iteration fields always. -/
def Obligations.StatusFrame : Prop :=
  ∀ (i : Instr) (s t : State), exec i s = .next t →
    (keepsCpsr i = true → t.cpsr = s.cpsr) ∧
    (keepsControl i = true →
      t.cpsr.mode = s.cpsr.mode ∧ t.cpsr.i = s.cpsr.i ∧ t.cpsr.f = s.cpsr.f ∧ t.cpsr.t = s.cpsr.t) ∧
    (keepsSaved i = true → t.spsr = s.spsr) ∧
    ((∀ n ∈ storesTo i s, ¬(0x04000000 ≤ n ∧ n < 0x04000400)) → t.dev = s.dev) ∧
    t.params = s.params ∧ t.iteration = s.iteration ∧ t.dmaResume = s.dmaResume

-- Memory and I/O

/-- R45, R82, R88, R89, R91: in RAM a CPU read gives the bytes memory holds and changes nothing, and an aligned write of a
halfword or word, or of a byte in EWRAM or IWRAM, is what a read then gives, every other byte as before.  A read of the
cartridge ROM within its image, and of the BIOS image by an instruction there, gives the image's bytes.  The fetch reads the
aligned word in ARM state and the aligned halfword in Thumb state, in RAM, in ROM and, with the pc there, in the BIOS. -/
def Obligations.RamReadsAndWrites : Prop :=
  (∀ (a : Word) (s : State), isRam (region s.bus a) = true → cpuRead a .byte s = ((byteAt s a).zeroExtend 32, s)) ∧
  (∀ (a : Word) (w : Width) (s : State), s.bus = Bus.gba → w.align a = a →
    isRam (region s.bus a) = true ∨ (region s.bus a = .rom ∧ a.toNat % 0x2000000 + w.bytes ≤ s.params.romSize) ∨
      (region s.bus a = .bios ∧ region s.bus s.pc = .bios ∧ s.params.biosImage = true) →
    cpuRead a w s = (valueAt s w a, s)) ∧
  (∀ (a v : Word) (w : Width) (s : State), s.bus = Bus.gba → isRam (region s.bus a) = true → w.align a = a →
    (w = .byte → region s.bus a = .ewram ∨ region s.bus a = .iwram) →
    valueAt (busWrite a w v s) w a = v &&& (if w = .byte then 0xFF#32 else if w = .half then 0xFFFF#32 else 0xFFFFFFFF#32) ∧
    (∀ b : Word, (∀ k < w.bytes, cell s.bus b ≠ cell s.bus (a + BitVec.ofNat 32 k)) →
      byteAt (busWrite a w v s) b = byteAt s b) ∧
    (busWrite a w v s).dev = s.dev ∧ (busWrite a w v s).gpr = s.gpr ∧ (busWrite a w v s).cpsr = s.cpsr) ∧
  (∀ s : State, s.bus = Bus.gba →
    let holds (n : Nat) := isRam (region s.bus s.pc) = true ∨ (region s.bus s.pc = .bios ∧ s.params.biosImage = true) ∨
      (region s.bus s.pc = .rom ∧ s.pc.toNat % 0x2000000 / n * n + n ≤ s.params.romSize)
    (s.cpsr.t = false → holds 4 → fetch s = (.arm (valueAt s .word (align4 s.pc)), s)) ∧
    (s.cpsr.t = true → holds 2 → fetch s = (.thumb ((valueAt s .half (align2 s.pc)).extractLsb' 0 16), s)))

/-- R88: the default map and its mirrors.  Each address is of the region of its range.  Two addresses of a region reach one
byte exactly where their offsets in its window agree, those of cartridge ROM in its three mirrors among them, and the last
32 KB of a VRAM window are the 32 KB before them.  Of any map, which is a parameter (log entry 35), the first row that holds
an address decides. -/
def Obligations.MirrorsShareStorage : Prop :=
  (∀ a : Word, region Bus.gba a =
    if a.toNat ≤ 0x00003FFF then .bios else if a.toNat ≤ 0x01FFFFFF then .unmapped
    else if a.toNat ≤ 0x02FFFFFF then .ewram else if a.toNat ≤ 0x03FFFFFF then .iwram
    else if a.toNat ≤ 0x040003FF then .io else if a.toNat ≤ 0x04FFFFFF then .unmapped
    else if a.toNat ≤ 0x05FFFFFF then .palette else if a.toNat ≤ 0x06FFFFFF then .vram
    else if a.toNat ≤ 0x07FFFFFF then .oam else if a.toNat ≤ 0x0DFFFFFF then .rom
    else if a.toNat ≤ 0x0FFFFFFF then .save else .unmapped) ∧
  (∀ a b : Word,
    let cell := cell Bus.gba
    let region := region Bus.gba
    (region a = .ewram → region b = .ewram → (cell a = cell b ↔ a.toNat % 0x40000 = b.toNat % 0x40000)) ∧
    (region a = .iwram → region b = .iwram → (cell a = cell b ↔ a.toNat % 0x8000 = b.toNat % 0x8000)) ∧
    (region a = .palette → region b = .palette → (cell a = cell b ↔ a.toNat % 0x400 = b.toNat % 0x400)) ∧
    (region a = .oam → region b = .oam → (cell a = cell b ↔ a.toNat % 0x400 = b.toNat % 0x400)) ∧
    (region a = .rom → region b = .rom → (cell a = cell b ↔ a.toNat % 0x2000000 = b.toNat % 0x2000000)) ∧
    (region a = .vram → region b = .vram →
      (cell a = cell b ↔ a.toNat % 0x20000 = b.toNat % 0x20000 ∨
        (0x18000 ≤ a.toNat % 0x20000 ∧ a.toNat % 0x20000 = b.toNat % 0x20000 + 0x8000) ∨
        (0x18000 ≤ b.toNat % 0x20000 ∧ b.toNat % 0x20000 = a.toNat % 0x20000 + 0x8000))) ∧
    (region a = .bios ∨ region a = .io → (cell a = cell b ↔ a = b)) ∧
    (region a ≠ region b → cell a ≠ cell b)) ∧
  (∀ (r : MapRow) (bus : Bus) (a : Word),
    region [] a = .unmapped ∧
    (r.first ≤ a.toNat ∧ a.toNat ≤ r.last → region (r :: bus) a = r.region) ∧
    (¬(r.first ≤ a.toNat ∧ a.toNat ≤ r.last) → region (r :: bus) a = region bus a ∧ cell (r :: bus) a = cell bus a))

/-- R90: a byte written to palette RAM or to the BG area of VRAM goes to both bytes of its halfword; one written to OAM or
to the OBJ area is ignored.  The areas meet at offset 0x10000, and at 0x14000 in display modes 3 to 5; the offset is the one
R88 maps the address to (log entry 28). -/
def Obligations.ByteWritesToVideoMemory : Prop :=
  ∀ (a v : Word) (s : State), s.bus = Bus.gba →
    let mode := (s.mem.read 0x04000000).toNat % 8
    let objStart := if 3 ≤ mode ∧ mode ≤ 5 then 0x14000 else 0x10000
    let off := if a.toNat % 0x20000 < 0x18000 then a.toNat % 0x20000 else a.toNat % 0x20000 - 0x8000
    let doubled := valueAt (busWrite a .byte v s) .half (align2 a) = (v &&& 0xFF#32) * 0x101#32 ∧
      ∀ b : Word, cell s.bus b ≠ cell s.bus (align2 a) → cell s.bus b ≠ cell s.bus (align2 a + 1) →
        byteAt (busWrite a .byte v s) b = byteAt s b
    (region s.bus a = .palette → doubled) ∧
    (region s.bus a = .vram → off < objStart → doubled) ∧
    (region s.bus a = .vram → objStart ≤ off → busWrite a .byte v s = s) ∧
    (region s.bus a = .oam → busWrite a .byte v s = s)

/-- R86, R87, R91, R92, R580, R603: a read of unmapped space, of the BIOS from outside it or without its image, of ROM
past its image, of save memory or of an unused or write-only I/O address is free bytes, one for each byte of the access
(log entry 7), and changes no state but the count of free values taken; a write to the BIOS, to ROM or to unmapped space
changes no state.  That a save-memory write stores nothing is the model's choice, which R92 admits (log entry 16). -/
def Obligations.OpenBusAndIgnoredWrites : Prop :=
  (∀ (a : Word) (w : Width) (s : State), s.bus = Bus.gba → w.align a = a →
    region s.bus a = .unmapped ∨ region s.bus a = .save ∨
      (region s.bus a = .bios ∧ (region s.bus s.pc ≠ .bios ∨ s.params.biosImage = false)) ∨
      (region s.bus a = .rom ∧ s.params.romSize ≤ a.toNat % 0x2000000) →
    cpuRead a w s = (freeBytes s w.bytes, { s with draws := s.draws + w.bytes })) ∧
  (∀ (off : Nat) (w : Width) (s : State), s.bus = Bus.gba → off % w.bytes = 0 →
    let openBus (k : Nat) := (0x56 ≤ k ∧ k ≤ 0x5F) ∨ (0x86 ≤ k ∧ k ≤ 0x87) ∨ (0xA0 ≤ k ∧ k ≤ 0xAF) ∨
      (0xB0 ≤ k ∧ k ≤ 0xDF ∧ (k - 0xB0) % 12 < 10) ∨ (0xE0 ≤ k ∧ k ≤ 0xFF) ∨ (0x110 ≤ k ∧ k ≤ 0x11F) ∨
      (0x160 ≤ k ∧ k ≤ 0x1FF) ∨ (0x206 ≤ k ∧ k ≤ 0x207) ∨ (0x20C ≤ k ∧ k ≤ 0x2FF) ∨ (0x301 ≤ k ∧ k ≤ 0x3FF)
    (∀ k < w.bytes, openBus (off + k)) →
    cpuRead (0x04000000 + BitVec.ofNat 32 off) w s =
      (freeBytes s w.bytes, { s with draws := s.draws + w.bytes })) ∧
  (∀ (a v : Word) (w : Width) (s : State), s.bus = Bus.gba → w.align a = a →
    region s.bus a = .unmapped ∨ region s.bus a = .bios ∨ region s.bus a = .rom ∨ region s.bus a = .save →
    busWrite a w v s = s)

/-- R523 to R525, R550, R551, R565, R570: registers written and read through the bus.  IE takes bits 13:0; IF loses the bits
written as 1 and no other; IME takes bit 0; any write to HALTCNT halts.  DISPSTAT takes its enables and the compare line
and reads its three flags from the counters; VCOUNT reads the line; KEYINPUT reads 0 for each button pressed; both ignore
writes.  KEYCNT takes its selection, its enable and its condition.
That the halfword at 0x0400020A reads 0, where R580 lists no register, is log entry 15.  R580: a read of plain storage, at
every width, gives what was last written there, and the write changes no other byte and has no side effect. -/
def Obligations.InterruptRegisters : Prop :=
  (∀ (v : Word) (s : State), s.bus = Bus.gba →
    busWrite 0x04000200 .half v s = s.setDev { s.dev with ie := v.extractLsb' 0 14 } ∧
    busWrite 0x04000202 .half v s = s.setDev { s.dev with iflags := s.dev.iflags &&& ~~~(v.extractLsb' 0 14) } ∧
    busWrite 0x04000208 .half v s = s.setDev { s.dev with ime := v.getLsbD 0 } ∧
    busWrite 0x04000301 .byte v s = s.setDev { s.dev with halted := true } ∧
    cpuRead 0x04000200 .half s = (s.dev.ie.zeroExtend 32, s) ∧
    cpuRead 0x04000202 .half s = (s.dev.iflags.zeroExtend 32, s) ∧
    cpuRead 0x04000208 .half s = ((BitVec.ofBool s.dev.ime).zeroExtend 32, s) ∧
    busWrite 0x04000004 .half v s = s.setDev { s.dev with
      dispstat := ⟨v.getLsbD 3, v.getLsbD 4, v.getLsbD 5, v.extractLsb' 8 8⟩ } ∧
    (let r := cpuRead 0x04000004 .half s
     let p := s.dev.ppu
     r.2 = s ∧ (r.1.getLsbD 0 = true ↔ 160 ≤ p.line.val ∧ p.line.val ≤ 226) ∧
     (r.1.getLsbD 1 = true ↔ p.line.val ≤ 159 ∧ 240 ≤ p.dot.val) ∧
     (r.1.getLsbD 2 = true ↔ p.line.val = s.dev.dispstat.lyc.toNat) ∧
     r.1.getLsbD 3 = s.dev.dispstat.vblankIrq ∧ r.1.getLsbD 4 = s.dev.dispstat.hblankIrq ∧
     r.1.getLsbD 5 = s.dev.dispstat.vcountIrq ∧ r.1.extractLsb' 6 2 = 0 ∧ r.1.extractLsb' 8 8 = s.dev.dispstat.lyc ∧
     r.1.extractLsb' 16 16 = 0) ∧
    cpuRead 0x04000006 .half s = (BitVec.ofNat 32 s.dev.ppu.line.val, s) ∧
    busWrite 0x04000006 .half v s = s ∧
    cpuRead 0x04000130 .half s = ((~~~s.buttons).zeroExtend 32, s) ∧
    busWrite 0x04000130 .half v s = s ∧
    busWrite 0x04000132 .half v s = s.setDev { s.dev with
      keycnt := ⟨v.extractLsb' 0 10, v.getLsbD 14, v.getLsbD 15⟩ } ∧
    (let r := cpuRead 0x04000132 .half s
     r.2 = s ∧ r.1.extractLsb' 0 10 = s.dev.keycnt.select ∧ r.1.extractLsb' 10 4 = 0 ∧
     r.1.getLsbD 14 = s.dev.keycnt.irq ∧ r.1.getLsbD 15 = s.dev.keycnt.all ∧ r.1.extractLsb' 16 16 = 0) ∧
    cpuRead 0x0400020A .half s = (0, s) ∧
    busWrite 0x0400020A .half v s = s) ∧
  (∀ (off : Nat) (w : Width) (v : Word) (s : State), s.bus = Bus.gba → off % w.bytes = 0 →
    let plain (k : Nat) := k ≤ 3 ∨ (8 ≤ k ∧ k ≤ 0x55) ∨ (0x60 ≤ k ∧ k ≤ 0x81) ∨ (0x84 ≤ k ∧ k ≤ 0x85) ∨
      (0x88 ≤ k ∧ k ≤ 0x9F) ∨ (0x120 ≤ k ∧ k ≤ 0x12F) ∨ (0x134 ≤ k ∧ k ≤ 0x15F) ∨ (0x204 ≤ k ∧ k ≤ 0x205) ∨ k = 0x300
    (∀ k < w.bytes, plain (off + k)) →
    let a : Word := 0x04000000 + BitVec.ofNat 32 off
    let t := busWrite a w v s
    cpuRead a w t = (v &&& (if w = .byte then 0xFF#32 else if w = .half then 0xFFFF#32 else 0xFFFFFFFF#32), t) ∧
    t = s.setMem t.mem ∧ ∀ k : Nat, k < 0x04000000 + off ∨ 0x04000000 + off + w.bytes ≤ k → t.mem.read k = s.mem.read k)

-- Exceptions

/-- R508, with the vectors and modes of R506: the old CPSR in the SPSR of the entered mode, the link in its R14, the mode
changed, T clear, I set, F set by FIQ only, the flags kept, the pc at the vector, and no other register, no memory and no
device changed.  R509: the links. -/
def Obligations.ExceptionEntry : Prop :=
  (∀ (e : Exc) (link : Word) (s : State),
    let t := takeExceptionWithLink e link s
    (∃ q, t.spsrOf e.mode = some q ∧ q.toWord = s.cpsr.toWord) ∧ t.regOf e.mode 14 = link ∧
    t.cpsr = { s.cpsr with mode := e.mode, t := false, i := true, f := if e = .fiq then true else s.cpsr.f } ∧
    t.pc = e.vector ∧
    (∀ (m : Mode) (i : Reg), i ≠ 15 → ¬(i = 14 ∧ m = e.mode) → t.regOf m i = s.regOf m i) ∧
    (∀ m : Mode, m ≠ e.mode → t.spsrOf m = s.spsrOf m) ∧
    t.mem = s.mem ∧ t.dev = s.dev ∧ t.lastUsrBank = s.lastUsrBank ∧ t.params = s.params ∧ t.draws = s.draws ∧
    t.iteration = s.iteration ∧ t.dmaResume = s.dmaResume) ∧
  (Exc.undefined.vector = 0x04 ∧ Exc.undefined.mode = .und ∧
    Exc.softwareInterrupt.vector = 0x08 ∧ Exc.softwareInterrupt.mode = .svc ∧
    Exc.prefetchAbort.vector = 0x0C ∧ Exc.prefetchAbort.mode = .abt ∧
    Exc.dataAbort.vector = 0x10 ∧ Exc.dataAbort.mode = .abt ∧
    Exc.irq.vector = 0x18 ∧ Exc.irq.mode = .irq ∧ Exc.fiq.vector = 0x1C ∧ Exc.fiq.mode = .fiq) ∧
  (∀ (e : Exc) (s : State), takeException e s = takeExceptionWithLink e (s.pc + match e with
    | .undefined | .softwareInterrupt => if s.cpsr.t then 2 else 4
    | .prefetchAbort | .irq | .fiq => 4
    | .dataAbort => 8) s)

/-- R509, R511: the usual return undoes an entry.  `SUBS PC, LR, #4` after an IRQ taken at pc, and `MOVS PC, LR` after an
SWI or an undefined instruction with its link, restore the CPSR and the pc; what stays is the entered mode's R14 and
SPSR. -/
def Obligations.ReturnUndoesEntry : Prop :=
  ∀ s : State, s.strict = false ∨ s.lastUsrBank = false →
    (alignFor s.cpsr.t s.pc = s.pc →
      let t := takeException .irq s
      exec (.subImm .al true 14 15 0 4) t = .next { t with cpsr := s.cpsr, pc := s.pc, lastUsrBank := false }) ∧
    (∀ (e : Exc) (link : Word), e = .undefined ∨ e = .softwareInterrupt → alignFor s.cpsr.t link = link →
      let t := takeExceptionWithLink e link s
      exec (.movRsi .al true 0 15 0 .lsl 14) t = .next { t with cpsr := s.cpsr, pc := link, lastUsrBank := false })

/-- R520 to R522, R565, R570: at the poll the keypad condition is evaluated first; a halt ends when an enabled request is
pending, whatever IME and I are; an IRQ is taken exactly when IME is set, an enabled request is pending and I is clear;
masking clears no request; FIQ, whose line is a parameter (log entry 11), goes first where F is clear.  That `all` with no
button selected holds is the model's reading (log entry 23). -/
def Obligations.InterruptPoll : Prop :=
  ∀ s : State,
    let k := s.dev.keycnt
    let hit := k.irq = true ∧ (if k.all then ∀ j < 10, k.select.getLsbD j = true → s.buttons.getLsbD j = true
      else ∃ j < 10, k.select.getLsbD j = true ∧ s.buttons.getLsbD j = true)
    let d := (poll s).dev
    (∀ j < 14, d.iflags.getLsbD j = true ↔ s.dev.iflags.getLsbD j = true ∨ (j = 12 ∧ hit)) ∧
    d.ie = s.dev.ie ∧ d.ime = s.dev.ime ∧
    (d.halted = true ↔ s.dev.halted = true ∧ d.ie &&& d.iflags = 0) ∧
    (s.fiqLine = false ∨ s.cpsr.f = true →
      (d.ime = true ∧ d.ie &&& d.iflags ≠ 0 ∧ s.cpsr.i = false → poll s = takeException .irq (s.setDev d)) ∧
      (¬(d.ime = true ∧ d.ie &&& d.iflags ≠ 0 ∧ s.cpsr.i = false) → poll s = s.setDev d)) ∧
    (s.fiqLine = true → s.cpsr.f = false → poll s = takeException .fiq (s.setDev d))

-- Devices

/-- R535 to R538.  Over any number of cycles without an overflow, an enabled timer that counts cycles adds one for each
whole prescaler period and keeps the remainder.  A tick at 0xFFFF reloads the counter, requests `IF` bit 3 + n where bit 6
is set and signals one drain to each FIFO that selects the timer.  In each cycle a timer n ≥ 1 that cascades ticks exactly
where the timer before it overflows, so that one whose predecessor is stopped does not count; a stopped timer does not count.
A write of the low half sets the reload value; bit 7 written from 0 to 1 loads the counter and clears the prescaler count.
That another write keeps the prescaler count is log entry 22, and that the drain's timer is read at the overflow is log
entry 24. -/
def Obligations.TimersCount : Prop :=
  (∀ (n : Fin 4) (cycles : Nat) (s : State),
    let t := s.dev.timers[n]
    let u := (timersAdvance cycles s).dev.timers[n]
    let period := [1, 64, 256, 1024].getD t.prescaler.toNat 1
    t.enable = true → (t.cascade = false ∨ n = 0) → t.count < period →
    t.counter.toNat + (t.count + cycles) / period < 0x10000 →
    u.counter.toNat = t.counter.toNat + (t.count + cycles) / period ∧ u.count = (t.count + cycles) % period ∧
    u.reload = t.reload ∧ u.enable = true) ∧
  (∀ (n : Fin 4) (s : State), s.dev.timers[n].counter = 0xFFFF →
    let s' := (timerTick n s).1
    (timerTick n s).2 = true ∧ s'.dev.timers[n] = { s.dev.timers[n] with counter := s.dev.timers[n].reload } ∧
    (∀ j < 14, s'.dev.iflags.getLsbD j = true ↔
      s.dev.iflags.getLsbD j = true ∨ (j = 3 + n.val ∧ s.dev.timers[n].irq = true)) ∧
    s'.dev.fifoA.drains = s.dev.fifoA.drains + (if (if s.soundCntHigh.getLsbD 2 then 1 else 0) = n.val then 1 else 0) ∧
    s'.dev.fifoB.drains = s.dev.fifoB.drains + (if (if s.soundCntHigh.getLsbD 6 then 1 else 0) = n.val then 1 else 0)) ∧
  (∀ (n : Fin 4) (s : State), s.dev.timers[n].counter ≠ 0xFFFF →
    timerTick n s = (s.setDev (s.dev.setTimer n
      { s.dev.timers[n] with counter := s.dev.timers[n].counter + 1 }), false)) ∧
  (∀ (n : Fin 4) (s : State),
    let t := s.dev.timers[n]
    let u := (timersAdvance 1 s).dev.timers[n]
    u.counter = (if timerTicks s.dev n.val then (if t.counter = 0xFFFF then t.reload else t.counter + 1) else t.counter) ∧
    u.reload = t.reload ∧ u.prescaler = t.prescaler ∧ u.cascade = t.cascade ∧ u.irq = t.irq ∧ u.enable = t.enable) ∧
  (∀ (n m : Fin 4) (cycles : Nat) (s : State), n.val = m.val + 1 → s.dev.timers[n].cascade = true →
    s.dev.timers[m].enable = false → (timersAdvance cycles s).dev.timers[n] = s.dev.timers[n]) ∧
  (∀ (n : Fin 4) (cycles : Nat) (s : State), s.dev.timers[n].enable = false →
    (timersAdvance cycles s).dev.timers[n] = s.dev.timers[n]) ∧
  (∀ (n : Fin 4) (v : Word) (s : State), s.bus = Bus.gba →
    let t := s.dev.timers[n]
    let low : Word := 0x04000100 + BitVec.ofNat 32 (4 * n.val)
    let u := (busWrite (low + 2) .half v s).dev.timers[n]
    let r := cpuRead (low + 2) .half s
    (cpuRead low .half s = (t.counter.zeroExtend 32, s) ∧
      busWrite low .half v s = s.setDev (s.dev.setTimer n { t with reload := v.extractLsb' 0 16 })) ∧
    (r.2 = s ∧ r.1.extractLsb' 0 2 = t.prescaler ∧ r.1.getLsbD 2 = t.cascade ∧ r.1.extractLsb' 3 3 = 0 ∧
      r.1.getLsbD 6 = t.irq ∧ r.1.getLsbD 7 = t.enable ∧ r.1.extractLsb' 8 24 = 0) ∧
    u.prescaler = v.extractLsb' 0 2 ∧ u.cascade = v.getLsbD 2 ∧ u.irq = v.getLsbD 6 ∧ u.enable = v.getLsbD 7 ∧
    u.reload = t.reload ∧
    (v.getLsbD 7 = true ∧ t.enable = false → u.counter = t.reload ∧ u.count = 0) ∧
    (¬(v.getLsbD 7 = true ∧ t.enable = false) → u.counter = t.counter ∧ u.count = t.count))

/-- R540 to R542: a write of `DMAnSAD`, `DMAnDAD` or `DMAnCNT_L` stores all its bits and does no more; `DMAnCNT_H` reads
as its bits are stored, the unused ones 0.  A write of `DMAnCNT_H` that sets bit 15 from 0 latches the masked addresses
and the count, 0 meaning the maximum, and with immediate timing makes the channel due; one that keeps bit 15 set changes
only the control bits; one that clears it disarms.  That an armed channel is due once its timing becomes immediate is the
model's reading (log entry 17). -/
def Obligations.DmaArming : Prop :=
  ∀ (n : Fin 4) (v : Word) (s : State), s.bus = Bus.gba →
    let c := s.dev.dma[n]
    let e := (busWrite (0x040000BA + BitVec.ofNat 32 (12 * n.val)) .half v s).dev.dma[n]
    let base : Word := 0x040000B0 + BitVec.ofNat 32 (12 * n.val)
    let max := if n = 3 then 0x10000 else 0x4000
    busWrite base .word v s = s.setDev (s.dev.setDma n { c with sad := v }) ∧
    busWrite (base + 4) .word v s = s.setDev (s.dev.setDma n { c with dad := v }) ∧
    busWrite (base + 8) .half v s = s.setDev (s.dev.setDma n { c with cntL := v.extractLsb' 0 16 }) ∧
    cpuRead (base + 10) .half s = (c.ctl.zeroExtend 32, s) ∧
    busWrite (base + 10) .half v s = s.setDev (s.dev.setDma n e) ∧
    e.ctl = v.extractLsb' 0 16 &&& (if n = 3 then 0xFFE0#16 else 0xF7E0#16) ∧
    e.sad = c.sad ∧ e.dad = c.dad ∧ e.cntL = c.cntL ∧
    (v.getLsbD 15 = true → c.armed = false →
      e.src.toNat = c.sad.toNat % (if n = 0 then 2 ^ 27 else 2 ^ 28) ∧
      e.dst.toNat = c.dad.toNat % (if n = 3 then 2 ^ 28 else 2 ^ 27) ∧
      e.cnt = (if c.cntL.toNat % max = 0 then max else c.cntL.toNat % max) ∧
      (e.due = true ↔ v.extractLsb' 12 2 = 0)) ∧
    (v.getLsbD 15 = true → c.armed = true → e.src = c.src ∧ e.dst = c.dst ∧ e.cnt = c.cnt ∧
      (e.due = true ↔ c.due = true ∨ (v.extractLsb' 12 2 = 0 ∧ c.timing ≠ 0))) ∧
    (v.getLsbD 15 = false → e.armed = false ∧ e.due = false)

/-- R543 to R545: a transfer from RAM to RAM whose units do not overlap.  Each unit lands as read, at addresses that move by
the width, against it or not at all, and no other byte changes; then the IRQ request, and the channel armed again or
disarmed.  In sound FIFO mode there are 4 units of 32 bits and the destination stays.  The due channel with the lowest
number runs first.  R540 counts source control 3 as an increment on the ARM7TDMI; that it is one in every machine, and DRQ
without effect, where no CPU store but a transfer left the field in an armed channel, is log entry 36. -/
def Obligations.DmaTransfers : Prop :=
  (∀ (n : Fin 4) (s : State),
    let c := s.dev.dma[n]
    let w := c.width n
    let size : Word := BitVec.ofNat 32 w.bytes
    let move (ctl : BitVec 2) : Word := if ctl = 1 then 0 - size else if ctl = 2 then 0 else size
    let src (k : Nat) := w.align (c.src + BitVec.ofNat 32 k * move (c.ctl.extractLsb' 7 2))
    let dst (k : Nat) := w.align (c.dst + BitVec.ofNat 32 k * move (c.ctl.extractLsb' 5 2))
    ¬((n = 1 ∨ n = 2) ∧ c.ctl.extractLsb' 12 2 = 3) →
    s.bus = Bus.gba →
    (∀ k < c.cnt, isRam (region s.bus (src k)) = true ∧ isRam (region s.bus (dst k)) = true) →
    (∀ j < c.cnt, ∀ k < c.cnt, ∀ x < w.bytes, ∀ y < w.bytes,
      (j ≠ k → cell s.bus (dst j + BitVec.ofNat 32 x) ≠ cell s.bus (dst k + BitVec.ofNat 32 y)) ∧
      cell s.bus (dst j + BitVec.ofNat 32 x) ≠ cell s.bus (src k + BitVec.ofNat 32 y)) →
    let t := dmaRun n s
    (w = if c.ctl.getLsbD 10 then .word else .half) ∧
    (∀ k < c.cnt, valueAt t w (dst k) = valueAt s w (src k)) ∧
    (∀ a : Word, (∀ k < c.cnt, ∀ x < w.bytes, cell s.bus a ≠ cell s.bus (dst k + BitVec.ofNat 32 x)) →
      byteAt t a = byteAt s a) ∧
    (∀ j < 14, t.dev.iflags.getLsbD j = true ↔
      s.dev.iflags.getLsbD j = true ∨ (j = 8 + n.val ∧ c.ctl.getLsbD 14 = true)) ∧
    t.dev.dma[n].src = c.src + BitVec.ofNat 32 c.cnt * move (c.ctl.extractLsb' 7 2) ∧
    (c.ctl.getLsbD 9 = true ∧ c.ctl.extractLsb' 12 2 ≠ 0 →
      t.dev.dma[n].ctl = c.ctl ∧ t.dev.dma[n].due = false ∧ t.dev.dma[n].cnt = c.latchCnt n ∧
      t.dev.dma[n].dst = if c.ctl.extractLsb' 5 2 = 3 then c.latchDst n
        else c.dst + BitVec.ofNat 32 c.cnt * move (c.ctl.extractLsb' 5 2)) ∧
    (¬(c.ctl.getLsbD 9 = true ∧ c.ctl.extractLsb' 12 2 ≠ 0) → t.dev.dma[n].ctl = c.ctl &&& 0x7FFF#16 ∧
      t.dev.dma[n].due = false) ∧
    (∀ m : Fin 4, m ≠ n → t.dev.dma[m] = s.dev.dma[m]) ∧ t.gpr = s.gpr ∧ t.pc = s.pc ∧ t.cpsr = s.cpsr) ∧
  (∀ (n : Fin 4) (c : DmaChannel), n = 1 ∨ n = 2 → c.timing = 3 →
    c.width n = .word ∧ c.units n = 4 ∧ c.dstStep n = 0) ∧
  (∀ (n : Fin 4) (s : State), s.dev.dma[n].due = true → (∀ m : Fin 4, m < n → s.dev.dma[m].due = false) →
    ∀ k : Nat, dmaRunDue (k + 1) s = dmaRunDue k (dmaRun n s))

/-- R542, R552, R553.  The scanline, dot and remainder counters move as one position, modulo the 280896 cycles of a frame.
What one cycle requests and triggers: VBlank on entering line 160, HBlank on reaching dot 240 of a line below 160 and so
never in a VBlank line, VCount on entering the line of DISPSTAT 15:8; each sets its `IF` bit where its enable is set, and
VBlank and HBlank make due the channels armed with their timing. -/
def Obligations.PpuAdvances : Prop :=
  (∀ (cycles : Nat) (s : State),
    let position (p : Ppu) : Nat := (p.line.val * 308 + p.dot.val) * 4 + p.sub.val
    position (ppuAdvance cycles s).dev.ppu = (position s.dev.ppu + cycles) % 280896) ∧
  (∀ d : Devices,
    let e := ppuCycle d
    let entered := d.ppu.sub = 3 ∧ d.ppu.dot = 307
    let vblank := entered ∧ e.ppu.line = 160
    let hblank := d.ppu.sub = 3 ∧ d.ppu.dot = 239 ∧ d.ppu.line.val < 160
    let vcount := entered ∧ e.ppu.line.val = d.dispstat.lyc.toNat
    (∀ j < 14, e.iflags.getLsbD j = true ↔ d.iflags.getLsbD j = true ∨
      (j = 0 ∧ vblank ∧ d.dispstat.vblankIrq = true) ∨ (j = 1 ∧ hblank ∧ d.dispstat.hblankIrq = true) ∨
      (j = 2 ∧ vcount ∧ d.dispstat.vcountIrq = true)) ∧
    (∀ n : Fin 4, e.dma[n].due = true ↔ d.dma[n].due = true ∨
      (d.dma[n].armed = true ∧ ((vblank ∧ d.dma[n].timing = 1) ∨ (hblank ∧ d.dma[n].timing = 2)))))

/-- R560 to R562: a byte pushed joins the end of a FIFO of fewer than 32 bytes and is dropped by a full one; FIFO_A and
FIFO_B take the bytes written to them in order, and SOUNDCNT_H empties them by its bits 11 and 15, which read 0, and selects
their timers.  A drain pops the oldest byte and, at 16 bytes or fewer left, makes due exactly the channels 1 and 2 armed with
special timing whose DAD is the FIFO's address.  The APU advance carries out the drains signalled to each FIFO where bit 7 of
SOUNDCNT_X is set, and drops them where it is clear; that it is read then, and not at the overflow, is log entry 24, that the
address compared is the DAD register's is log entry 21, and that several refill requests of one advance make a channel due
once is log entry 37. -/
def Obligations.FifoDrainAndRefill : Prop :=
  (∀ (q : Fifo) (b : Byte), (q.push b).bytes = if q.bytes.length < 32 then q.bytes ++ [b] else q.bytes) ∧
  (∀ d : Devices,
    (drainA Bus.gba d).fifoA.bytes = d.fifoA.bytes.tail ∧ (drainB Bus.gba d).fifoB.bytes = d.fifoB.bytes.tail ∧
    (∀ n : Fin 4, ((drainA Bus.gba d).dma[n].due = true ↔ d.dma[n].due = true ∨
      (d.fifoA.bytes.tail.length ≤ 16 ∧ (n = 1 ∨ n = 2) ∧ d.dma[n].armed = true ∧ d.dma[n].timing = 3 ∧
        d.dma[n].dad = 0x040000A0))) ∧
    (∀ n : Fin 4, ((drainB Bus.gba d).dma[n].due = true ↔ d.dma[n].due = true ∨
      (d.fifoB.bytes.tail.length ≤ 16 ∧ (n = 1 ∨ n = 2) ∧ d.dma[n].armed = true ∧ d.dma[n].timing = 3 ∧
        d.dma[n].dad = 0x040000A4)))) ∧
  (∀ (v : Word) (s : State), s.bus = Bus.gba → FifosBounded s.dev →
    let bytes := [v.extractLsb' 0 8, v.extractLsb' 8 8, v.extractLsb' 16 8, v.extractLsb' 24 8]
    busWrite 0x040000A0 .word v s = s.setDev { s.dev with
      fifoA := { s.dev.fifoA with bytes := (s.dev.fifoA.bytes ++ bytes).take 32 } } ∧
    busWrite 0x040000A4 .word v s = s.setDev { s.dev with
      fifoB := { s.dev.fifoB with bytes := (s.dev.fifoB.bytes ++ bytes).take 32 } }) ∧
  (∀ (v : Word) (s : State), s.bus = Bus.gba →
    let t := busWrite 0x04000082 .half v s
    t.dev = { s.dev with
      fifoA := { s.dev.fifoA with bytes := if v.getLsbD 11 then [] else s.dev.fifoA.bytes }
      fifoB := { s.dev.fifoB with bytes := if v.getLsbD 15 then [] else s.dev.fifoB.bytes } } ∧
    cpuRead 0x04000082 .half t = (v &&& 0x77FF#32, t) ∧
    t.soundCntHigh.getLsbD 2 = v.getLsbD 10 ∧ t.soundCntHigh.getLsbD 6 = v.getLsbD 14 ∧
    (busWrite 0x04000084 .half v s).soundMaster = v.getLsbD 7 ∧
    cpuRead 0x04000084 .half (busWrite 0x04000084 .half v s) = (v &&& 0xFFFF#32, busWrite 0x04000084 .half v s)) ∧
  (∀ s : State, s.bus = Bus.gba →
    let on := (byteAt s 0x04000084).getLsbD 7
    let d := (apuAdvance s).dev
    let leftA := s.dev.fifoA.bytes.drop s.dev.fifoA.drains
    let leftB := s.dev.fifoB.bytes.drop s.dev.fifoB.drains
    apuAdvance s = s.setDev d ∧ d.fifoA = ⟨if on then leftA else s.dev.fifoA.bytes, 0⟩ ∧
    d.fifoB = ⟨if on then leftB else s.dev.fifoB.bytes, 0⟩ ∧
    (∀ n : Fin 4, d.dma[n].due = true ↔ s.dev.dma[n].due = true ∨
      (on = true ∧ (n = 1 ∨ n = 2) ∧ s.dev.dma[n].armed = true ∧ s.dev.dma[n].timing = 3 ∧
        ((0 < s.dev.fifoA.drains ∧ leftA.length ≤ 16 ∧ s.dev.dma[n].dad = 0x040000A0) ∨
          (0 < s.dev.fifoB.drains ∧ leftB.length ≤ 16 ∧ s.dev.dma[n].dad = 0x040000A4)))))

/-- R24, R530: the devices touch the CPU only through memory and the interrupt poll: an advance leaves every register, the
status registers and the pc as they are, or takes an IRQ or FIQ from them.  So does what a step goes on with where a DMA
advance was unfinished (log entry 13). -/
def Obligations.DevicesTouchCpuByInterrupt : Prop :=
  ∀ s t : State, (t = advanceDevices s ∨ ∃ cycles, t = dmaPhase cycles s) →
    (t.gpr = s.gpr ∧ t.pc = s.pc ∧ t.cpsr = s.cpsr ∧ t.spsr = s.spsr) ∨
    (∃ e : Exc, (e = .irq ∨ e = .fiq) ∧
      let u := takeException e s
      t.gpr = u.gpr ∧ t.pc = u.pc ∧ t.cpsr = u.cpsr ∧ t.spsr = u.spsr)

/-- Every step keeps the invariant: the pc aligned for its instruction set, memory canonical and held at the lowest of
mirrored addresses, the FIFOs within 32 bytes, and every due DMA channel armed with its unused control bits 0 (R40, R45,
R88, R540, R542, R560). -/
def Obligations.StepKeepsInvariant : Prop :=
  ∀ s t : State, Inv s → step s = .next t → Inv t
end

