-- ==== Sys2Proof/Laws/Map.lean ====
section
/-!
SUPPORT. What the default map of rule R88 makes of an address, and what holds of every map: where the bytes that an
address reaches are held.
-/

namespace Sys2Proof.Machine

-- The default map

theorem busRow_cons (r : MapRow) (bus : Bus) (a : Word) :
    busRow (r :: bus) a = if r.first ≤ a.toNat ∧ a.toNat ≤ r.last then some r else busRow bus a := by
  unfold busRow
  by_cases h : r.first ≤ a.toNat ∧ a.toNat ≤ r.last
  · rw [if_pos h, List.find?_cons_of_pos (by simp [h])]
  · rw [if_neg h, List.find?_cons_of_neg (by simpa using h)]

/-- An address in the range of a row of the default map is decoded by that row: its rows are disjoint. -/
theorem busRow_gba {r : MapRow} (hr : r ∈ Bus.gba) {a : Word} (h : r.first ≤ a.toNat ∧ a.toNat ≤ r.last) :
    busRow Bus.gba a = some r := by
  have disjoint : Bus.gba.Pairwise (fun r q => r.last < q.first) := by decide
  revert hr disjoint
  generalize Bus.gba = bus
  intro hr disjoint
  induction bus with
  | nil => cases hr
  | cons q rest ih =>
    rw [busRow_cons]
    obtain ⟨hq, hrest⟩ := List.pairwise_cons.mp disjoint
    rcases List.mem_cons.mp hr with rfl | hr
    · rw [if_pos h]
    · have := hq r hr
      rw [if_neg (by omega), ih hr hrest]

/-- The region of an address in the default map, by the row that holds it (R88). -/
theorem region_gba {r : MapRow} (hr : r ∈ Bus.gba) {a : Word} (h : r.first ≤ a.toNat ∧ a.toNat ≤ r.last) :
    region Bus.gba a = r.region := by
  unfold region
  rw [busRow_gba hr h]

/-- Every address of the default map is of one of its rows or unmapped (R88). -/
theorem region_gba_cases (a : Word) :
    (∃ r ∈ Bus.gba, r.first ≤ a.toNat ∧ a.toNat ≤ r.last ∧ region Bus.gba a = r.region) ∨
      ((∀ r ∈ Bus.gba, ¬(r.first ≤ a.toNat ∧ a.toNat ≤ r.last)) ∧ region Bus.gba a = .unmapped) := by
  by_cases h : ∃ r ∈ Bus.gba, r.first ≤ a.toNat ∧ a.toNat ≤ r.last
  · obtain ⟨r, hr, h⟩ := h
    exact .inl ⟨r, hr, h.1, h.2, region_gba hr h⟩
  · refine .inr ⟨fun r hr hra => h ⟨r, hr, hra⟩, ?_⟩
    unfold region busRow
    rw [List.find?_eq_none.mpr (fun r hr => by simpa using fun h1 => not_le.mp fun h2 => h ⟨r, hr, h1, h2⟩)]

/-- The place an address reaches in a region of the default map that has storage: the region's mirror of the address
itself (R88). -/
theorem regionOffset_gba {a : Word} (hs : regionSize (region Bus.gba a) ≠ 0) :
    regionOffset Bus.gba a = regionPlace (region Bus.gba a) a.toNat := by
  rcases region_gba_cases a with ⟨r, hr, h1, h2, h⟩ | ⟨_, h⟩
  · rw [h] at hs ⊢
    unfold regionOffset
    rw [busRow_gba hr ⟨h1, h2⟩]
    simp only [Bus.gba, List.mem_cons, List.not_mem_nil, or_false] at hr
    rcases hr with rfl | rfl | rfl | rfl | rfl | rfl | rfl | rfl | rfl | rfl | rfl <;>
      simp only [regionPlace, regionSize, vramFold] at * <;> first | (split <;> split <;> omega) | omega
  · rw [h] at hs
    exact absurd rfl hs

-- Every map

/-- A place lies in its region's storage, where the region has any. -/
theorem regionPlace_lt {r : Region} (h : regionSize r ≠ 0) (k : Nat) : regionPlace r k < regionSize r := by
  cases r <;> simp only [regionPlace, regionSize, vramFold] at * <;> first | omega | (split <;> omega)

theorem regionOffset_lt {bus : Bus} {a : Word} (h : regionSize (region bus a) ≠ 0) :
    regionOffset bus a < regionSize (region bus a) := by
  unfold region regionOffset at *
  cases hr : busRow bus a with
  | none => rw [hr] at h; exact absurd rfl h
  | some r => rw [hr] at h; exact regionPlace_lt h _

/-- Where two cells of stored regions coincide, so do the regions and the places in them. -/
theorem cell_inj {bus : Bus} {a b : Word} (ha : regionSize (region bus a) ≠ 0) (hb : regionSize (region bus b) ≠ 0)
    (h : cell bus a = cell bus b) : region bus a = region bus b ∧ regionOffset bus a = regionOffset bus b := by
  have la := regionOffset_lt ha
  have lb := regionOffset_lt hb
  unfold cell at h
  generalize region bus a = r at *
  generalize region bus b = q at *
  cases r <;> cases q <;> simp only [regionBase, regionSize] at h la lb <;> first | exact ⟨rfl, by omega⟩ | omega

/-- An I/O address's cell is that of its register's place. -/
theorem cell_io {bus : Bus} {a : Word} (h : region bus a = .io) : cell bus a = ioCell (regionOffset bus a) := by
  unfold cell ioCell
  rw [h]
  rfl

theorem regionOffset_io {bus : Bus} {a : Word} (h : region bus a = .io) : regionOffset bus a < 0x400 := by
  have := regionOffset_lt (bus := bus) (a := a) (by rw [h]; decide)
  rw [h] at this
  exact this

end Sys2Proof.Machine
end

