-- ==== Sys2Proof/Laws/Memory.lean ====
section
/-!
SUPPORT. The laws of the memory list: reading after a write, and the canonical form, which every memory operation
keeps.
-/

namespace Sys2Proof.Machine

@[simp] theorem Memory.read_nil (a : Nat) : Memory.read [] a = Memory.unlisted := rfl

theorem Memory.read_cons (c : Host.Cell) (m : Memory) (a : Nat) :
    Memory.read (c :: m) a = if c.1 = a then c.2 else m.read a := by
  unfold Memory.read
  by_cases h : c.1 = a
  · simp [h]
  · simp [List.find?, h, show (c.1 == a) = false by simp [h]]

theorem Memory.read_insert (m : Memory) (a : Nat) (b : Byte) (h : ∀ c ∈ m, c.1 ≠ a) (a' : Nat) :
    (Memory.insert a b m).read a' = if a = a' then b else m.read a' := by
  induction m with
  | nil => simp [Memory.insert, Memory.read_cons]
  | cons c rest ih =>
    have hc : c.1 ≠ a := h c (by simp)
    have hr : ∀ d ∈ rest, d.1 ≠ a := fun d hd => h d (by simp [hd])
    unfold Memory.insert
    split
    · rw [Memory.read_cons]
    · rw [Memory.read_cons, ih hr, Memory.read_cons]
      by_cases h1 : c.1 = a'
      · rw [if_pos h1, if_pos h1, if_neg (fun e => hc (h1.trans e.symm))]
      · rw [if_neg h1, if_neg h1]

theorem Memory.read_filter (m : Memory) (a a' : Nat) :
    Memory.read (m.filter (fun c => c.1 != a)) a' = if a = a' then Memory.unlisted else m.read a' := by
  induction m with
  | nil => simp
  | cons c rest ih =>
    by_cases hc : c.1 = a
    · rw [List.filter_cons_of_neg (by simp [hc]), ih, Memory.read_cons]
      by_cases h : a = a'
      · rw [if_pos h, if_pos h]
      · rw [if_neg h, if_neg h, if_neg (fun e => h (hc.symm.trans e))]
    · rw [List.filter_cons_of_pos (by simp [hc]), Memory.read_cons, ih, Memory.read_cons]
      by_cases h : a = a'
      · rw [if_pos h, if_pos h, if_neg (fun e => hc (e.trans h.symm))]
      · rw [if_neg h, if_neg h]

/-- A read after a write: the byte written at its address, what was there before elsewhere. -/
theorem Memory.read_write (m : Memory) (a : Nat) (b : Byte) (a' : Nat) :
    (m.write a b).read a' = if a = a' then b else m.read a' := by
  unfold Memory.write
  dsimp only
  split
  · next hb => rw [Memory.read_filter, hb]
  · rw [Memory.read_insert _ _ _ (by intro c hc; simpa using (List.mem_filter.mp hc).2), Memory.read_filter]
    by_cases h : a = a' <;> simp [h]

@[simp] theorem Memory.read_write_same (m : Memory) (a : Nat) (b : Byte) : (m.write a b).read a = b := by
  simp [Memory.read_write]

theorem Memory.read_write_other {a a' : Nat} (h : a' ≠ a) (m : Memory) (b : Byte) :
    (m.write a b).read a' = m.read a' := by
  rw [Memory.read_write, if_neg (Ne.symm h)]

theorem Memory.mem_insert {a : Nat} {b : Byte} {m : Memory} {c : Host.Cell} (h : c ∈ Memory.insert a b m) :
    c = (a, b) ∨ c ∈ m := by
  induction m with
  | nil => simpa [Memory.insert] using h
  | cons d rest ih =>
    unfold Memory.insert at h
    split at h
    · simpa using h
    · rcases List.mem_cons.mp h with rfl | h
      · simp
      · rcases ih h with h | h <;> simp [h]

/-- An entry of written memory is the one written or was there before. -/
theorem Memory.mem_write {m : Memory} {a : Nat} {b : Byte} {c : Host.Cell} (h : c ∈ m.write a b) :
    c = (a, b) ∨ c ∈ m := by
  unfold Memory.write at h
  dsimp only at h
  split at h
  · exact .inr (List.mem_filter.mp h).1
  · rcases Memory.mem_insert h with h | h
    · exact .inl h
    · exact .inr (List.mem_filter.mp h).1

theorem Memory.insert_sorted {a : Nat} {b : Byte} {m : Memory} (hs : m.Pairwise (fun c d => c.1 < d.1))
    (h : ∀ c ∈ m, c.1 ≠ a) : (Memory.insert a b m).Pairwise (fun c d => c.1 < d.1) := by
  induction m with
  | nil => simp [Memory.insert]
  | cons c rest ih =>
    obtain ⟨hc, hrest⟩ := List.pairwise_cons.mp hs
    unfold Memory.insert
    split
    · next hlt =>
      refine List.pairwise_cons.mpr ⟨fun d hd => ?_, hs⟩
      rcases List.mem_cons.mp hd with rfl | hd
      · exact hlt
      · exact Nat.lt_trans hlt (hc d hd)
    · next hlt =>
      refine List.pairwise_cons.mpr ⟨fun d hd => ?_, ih hrest (fun d hd => h d (by simp [hd]))⟩
      rcases Memory.mem_insert hd with rfl | hd
      · have := h c (by simp)
        show c.1 < a
        omega
      · exact hc d hd

theorem Memory.filter_wf {m : Memory} (h : m.wf) (p : Host.Cell → Bool) : Memory.wf (m.filter p) :=
  ⟨h.1.sublist List.filter_sublist, fun c hc => h.2 c (List.mem_filter.mp hc).1⟩

/-- A write keeps the canonical form. -/
theorem Memory.write_wf {m : Memory} (h : m.wf) (a : Nat) (b : Byte) : (m.write a b).wf := by
  unfold Memory.write
  dsimp only
  split
  · exact Memory.filter_wf h _
  · next hb =>
    refine ⟨Memory.insert_sorted (Memory.filter_wf h _).1 (fun c hc => by simpa using (List.mem_filter.mp hc).2), ?_⟩
    intro c hc
    rcases Memory.mem_insert hc with rfl | hc
    · exact hb
    · exact h.2 c (List.mem_filter.mp hc).1

theorem imageCells_mem {a : Nat} {bytes : List Byte} {c : Host.Cell} (h : c ∈ imageCells a bytes) :
    a ≤ c.1 ∧ c.1 < a + bytes.length ∧ c.2 ≠ Memory.unlisted := by
  induction bytes generalizing a with
  | nil => cases h
  | cons b rest ih =>
    unfold imageCells at h
    split at h
    · have := ih h
      simp only [List.length_cons]
      exact ⟨by omega, by omega, this.2.2⟩
    · next hb =>
      rcases List.mem_cons.mp h with rfl | h
      · exact ⟨Nat.le_refl _, by simp, hb⟩
      · have := ih h
        simp only [List.length_cons]
        exact ⟨by omega, by omega, this.2.2⟩

theorem imageCells_wf (a : Nat) (bytes : List Byte) : Memory.wf (imageCells a bytes) := by
  refine ⟨?_, fun c hc => (imageCells_mem hc).2.2⟩
  induction bytes generalizing a with
  | nil => exact List.Pairwise.nil
  | cons b rest ih =>
    unfold imageCells
    split
    · exact ih (a + 1)
    · exact List.pairwise_cons.mpr ⟨fun c hc => (imageCells_mem hc).1, ih (a + 1)⟩

/-- The byte of an image at an address, and what an unlisted address reads as outside it. -/
theorem imageCells_read (a : Nat) (bytes : List Byte) (n : Nat) :
    (imageCells a bytes).read n = if a ≤ n ∧ n < a + bytes.length then bytes.getD (n - a) Memory.unlisted
      else Memory.unlisted := by
  induction bytes generalizing a with
  | nil => simp [imageCells]
  | cons b rest ih =>
    have tail : (imageCells (a + 1) rest).read n =
        if a + 1 ≤ n ∧ n < a + 1 + rest.length then rest.getD (n - (a + 1)) Memory.unlisted else Memory.unlisted :=
      ih (a + 1)
    by_cases hn : n = a
    · subst hn
      rw [if_neg (by omega)] at tail
      rw [if_pos ⟨Nat.le_refl _, by simp⟩]
      unfold imageCells
      split
      · next hb => rw [tail, Nat.sub_self, List.getD_cons_zero, hb]
      · rw [Memory.read_cons, if_pos rfl, Nat.sub_self, List.getD_cons_zero]
    · have step : (imageCells a (b :: rest)).read n = (imageCells (a + 1) rest).read n := by
        show Memory.read (if b = Memory.unlisted then imageCells (a + 1) rest else (a, b) :: imageCells (a + 1) rest) n = _
        split
        · rfl
        · rw [Memory.read_cons, if_neg (fun e => hn e.symm)]
      rw [step, tail]
      simp only [List.length_cons]
      by_cases h : a + 1 ≤ n ∧ n < a + 1 + rest.length
      · rw [if_pos h, if_pos (by omega), show n - a = (n - (a + 1)) + 1 by omega, List.getD_cons_succ]
      · rw [if_neg h, if_neg (by omega)]

/-- A read of two lists of entries one after the other: the first that lists the address. -/
theorem Memory.read_append (m k : Memory) (a : Nat) :
    Memory.read (m ++ k) a = if ∃ c ∈ m, c.1 = a then m.read a else k.read a := by
  induction m with
  | nil => simp
  | cons c rest ih =>
    rw [List.cons_append, Memory.read_cons, ih, Memory.read_cons]
    by_cases h : c.1 = a
    · simp [h]
    · simp [h]

/-- The images give a memory in the canonical form. -/
theorem imagesMemory_wf (bios : Option (Vector Byte 0x4000)) (rom : List Byte) : (imagesMemory bios rom).wf := by
  unfold imagesMemory
  have hr := imageCells_wf 0x08000000 (rom.take 0x2000000)
  cases bios with
  | none => exact hr
  | some image =>
    have hb := imageCells_wf 0 image.toList
    refine ⟨List.pairwise_append.mpr ⟨hb.1, hr.1, fun c hc d hd => ?_⟩, fun c hc => ?_⟩
    · have h1 := imageCells_mem hc
      have h2 := imageCells_mem hd
      have : image.toList.length = 0x4000 := by simp
      omega
    · rcases List.mem_append.mp hc with h | h
      · exact hb.2 c h
      · exact hr.2 c h

/-- Memory has the canonical form after every reset. -/
theorem State.resetWith_mem_wf (p : Params) (bios : Option (Vector Byte 0x4000)) (rom : List Byte) :
    (State.resetWith p bios rom).mem.wf := imagesMemory_wf bios rom

theorem State.reset_mem_wf : State.reset.mem.wf := imagesMemory_wf none []

/-- The host's reset keeps the canonical form. -/
theorem hostReset_mem_wf {s : State} (h : s.mem.wf) : (hostReset s).mem.wf := Memory.filter_wf h _

end Sys2Proof.Machine
end

