-- ==== Sys2Proof/Laws/State.lean ====
section
/-!
SUPPORT. One lemma per field per update of the state, so that no proof unfolds a record update.
-/

namespace Sys2Proof.Machine

/-- The map is a parameter, so that what keeps the parameters keeps the map. -/
@[simp] theorem State.bus_eq (s : State) : s.bus = s.params.bus := rfl

-- `setPc`

@[simp] theorem State.setPc_gpr (s : State) (v : Word) : (s.setPc v).gpr = s.gpr := rfl
@[simp] theorem State.setPc_pc (s : State) (v : Word) : (s.setPc v).pc = v := rfl
@[simp] theorem State.setPc_cpsr (s : State) (v : Word) : (s.setPc v).cpsr = s.cpsr := rfl
@[simp] theorem State.setPc_spsr (s : State) (v : Word) : (s.setPc v).spsr = s.spsr := rfl
@[simp] theorem State.setPc_lastUsrBank (s : State) (v : Word) : (s.setPc v).lastUsrBank = s.lastUsrBank := rfl
@[simp] theorem State.setPc_mem (s : State) (v : Word) : (s.setPc v).mem = s.mem := rfl
@[simp] theorem State.setPc_dev (s : State) (v : Word) : (s.setPc v).dev = s.dev := rfl
@[simp] theorem State.setPc_params (s : State) (v : Word) : (s.setPc v).params = s.params := rfl
@[simp] theorem State.setPc_draws (s : State) (v : Word) : (s.setPc v).draws = s.draws := rfl
@[simp] theorem State.setPc_iteration (s : State) (v : Word) : (s.setPc v).iteration = s.iteration := rfl
@[simp] theorem State.setPc_dmaResume (s : State) (v : Word) : (s.setPc v).dmaResume = s.dmaResume := rfl

-- `setCpsr`

@[simp] theorem State.setCpsr_gpr (s : State) (p : Cpsr) : (s.setCpsr p).gpr = s.gpr := rfl
@[simp] theorem State.setCpsr_pc (s : State) (p : Cpsr) : (s.setCpsr p).pc = s.pc := rfl
@[simp] theorem State.setCpsr_cpsr (s : State) (p : Cpsr) : (s.setCpsr p).cpsr = p := rfl
@[simp] theorem State.setCpsr_spsr (s : State) (p : Cpsr) : (s.setCpsr p).spsr = s.spsr := rfl
@[simp] theorem State.setCpsr_lastUsrBank (s : State) (p : Cpsr) : (s.setCpsr p).lastUsrBank = s.lastUsrBank := rfl
@[simp] theorem State.setCpsr_mem (s : State) (p : Cpsr) : (s.setCpsr p).mem = s.mem := rfl
@[simp] theorem State.setCpsr_dev (s : State) (p : Cpsr) : (s.setCpsr p).dev = s.dev := rfl
@[simp] theorem State.setCpsr_params (s : State) (p : Cpsr) : (s.setCpsr p).params = s.params := rfl
@[simp] theorem State.setCpsr_draws (s : State) (p : Cpsr) : (s.setCpsr p).draws = s.draws := rfl
@[simp] theorem State.setCpsr_iteration (s : State) (p : Cpsr) : (s.setCpsr p).iteration = s.iteration := rfl
@[simp] theorem State.setCpsr_dmaResume (s : State) (p : Cpsr) : (s.setCpsr p).dmaResume = s.dmaResume := rfl

-- `setFlags`

@[simp] theorem State.setFlags_gpr (s : State) (n z c v : Bool) : (s.setFlags n z c v).gpr = s.gpr := rfl
@[simp] theorem State.setFlags_pc (s : State) (n z c v : Bool) : (s.setFlags n z c v).pc = s.pc := rfl
@[simp] theorem State.setFlags_cpsr (s : State) (n z c v : Bool) : (s.setFlags n z c v).cpsr = { s.cpsr with n := n, z := z, c := c, v := v } := rfl
@[simp] theorem State.setFlags_spsr (s : State) (n z c v : Bool) : (s.setFlags n z c v).spsr = s.spsr := rfl
@[simp] theorem State.setFlags_lastUsrBank (s : State) (n z c v : Bool) : (s.setFlags n z c v).lastUsrBank = s.lastUsrBank := rfl
@[simp] theorem State.setFlags_mem (s : State) (n z c v : Bool) : (s.setFlags n z c v).mem = s.mem := rfl
@[simp] theorem State.setFlags_dev (s : State) (n z c v : Bool) : (s.setFlags n z c v).dev = s.dev := rfl
@[simp] theorem State.setFlags_params (s : State) (n z c v : Bool) : (s.setFlags n z c v).params = s.params := rfl
@[simp] theorem State.setFlags_draws (s : State) (n z c v : Bool) : (s.setFlags n z c v).draws = s.draws := rfl
@[simp] theorem State.setFlags_iteration (s : State) (n z c v : Bool) : (s.setFlags n z c v).iteration = s.iteration := rfl
@[simp] theorem State.setFlags_dmaResume (s : State) (n z c v : Bool) : (s.setFlags n z c v).dmaResume = s.dmaResume := rfl

-- `flagsOf`

@[simp] theorem State.flagsOf_gpr (s : State) (r : AluResult) : (s.flagsOf r).gpr = s.gpr := rfl
@[simp] theorem State.flagsOf_pc (s : State) (r : AluResult) : (s.flagsOf r).pc = s.pc := rfl
@[simp] theorem State.flagsOf_cpsr (s : State) (r : AluResult) : (s.flagsOf r).cpsr = { s.cpsr with n := isNegative r.value, z := isZero r.value, c := r.carry, v := r.overflow } := rfl
@[simp] theorem State.flagsOf_spsr (s : State) (r : AluResult) : (s.flagsOf r).spsr = s.spsr := rfl
@[simp] theorem State.flagsOf_lastUsrBank (s : State) (r : AluResult) : (s.flagsOf r).lastUsrBank = s.lastUsrBank := rfl
@[simp] theorem State.flagsOf_mem (s : State) (r : AluResult) : (s.flagsOf r).mem = s.mem := rfl
@[simp] theorem State.flagsOf_dev (s : State) (r : AluResult) : (s.flagsOf r).dev = s.dev := rfl
@[simp] theorem State.flagsOf_params (s : State) (r : AluResult) : (s.flagsOf r).params = s.params := rfl
@[simp] theorem State.flagsOf_draws (s : State) (r : AluResult) : (s.flagsOf r).draws = s.draws := rfl
@[simp] theorem State.flagsOf_iteration (s : State) (r : AluResult) : (s.flagsOf r).iteration = s.iteration := rfl
@[simp] theorem State.flagsOf_dmaResume (s : State) (r : AluResult) : (s.flagsOf r).dmaResume = s.dmaResume := rfl

-- `flagsNZ`

@[simp] theorem State.flagsNZ_gpr (s : State) (v : Word) : (s.flagsNZ v).gpr = s.gpr := rfl
@[simp] theorem State.flagsNZ_pc (s : State) (v : Word) : (s.flagsNZ v).pc = s.pc := rfl
@[simp] theorem State.flagsNZ_cpsr (s : State) (v : Word) : (s.flagsNZ v).cpsr = { s.cpsr with n := isNegative v, z := isZero v } := rfl
@[simp] theorem State.flagsNZ_spsr (s : State) (v : Word) : (s.flagsNZ v).spsr = s.spsr := rfl
@[simp] theorem State.flagsNZ_lastUsrBank (s : State) (v : Word) : (s.flagsNZ v).lastUsrBank = s.lastUsrBank := rfl
@[simp] theorem State.flagsNZ_mem (s : State) (v : Word) : (s.flagsNZ v).mem = s.mem := rfl
@[simp] theorem State.flagsNZ_dev (s : State) (v : Word) : (s.flagsNZ v).dev = s.dev := rfl
@[simp] theorem State.flagsNZ_params (s : State) (v : Word) : (s.flagsNZ v).params = s.params := rfl
@[simp] theorem State.flagsNZ_draws (s : State) (v : Word) : (s.flagsNZ v).draws = s.draws := rfl
@[simp] theorem State.flagsNZ_iteration (s : State) (v : Word) : (s.flagsNZ v).iteration = s.iteration := rfl
@[simp] theorem State.flagsNZ_dmaResume (s : State) (v : Word) : (s.flagsNZ v).dmaResume = s.dmaResume := rfl

-- `flagsNZC`

@[simp] theorem State.flagsNZC_gpr (s : State) (r : Shifted) : (s.flagsNZC r).gpr = s.gpr := rfl
@[simp] theorem State.flagsNZC_pc (s : State) (r : Shifted) : (s.flagsNZC r).pc = s.pc := rfl
@[simp] theorem State.flagsNZC_cpsr (s : State) (r : Shifted) : (s.flagsNZC r).cpsr = { s.cpsr with n := isNegative r.value, z := isZero r.value, c := r.carry } := rfl
@[simp] theorem State.flagsNZC_spsr (s : State) (r : Shifted) : (s.flagsNZC r).spsr = s.spsr := rfl
@[simp] theorem State.flagsNZC_lastUsrBank (s : State) (r : Shifted) : (s.flagsNZC r).lastUsrBank = s.lastUsrBank := rfl
@[simp] theorem State.flagsNZC_mem (s : State) (r : Shifted) : (s.flagsNZC r).mem = s.mem := rfl
@[simp] theorem State.flagsNZC_dev (s : State) (r : Shifted) : (s.flagsNZC r).dev = s.dev := rfl
@[simp] theorem State.flagsNZC_params (s : State) (r : Shifted) : (s.flagsNZC r).params = s.params := rfl
@[simp] theorem State.flagsNZC_draws (s : State) (r : Shifted) : (s.flagsNZC r).draws = s.draws := rfl
@[simp] theorem State.flagsNZC_iteration (s : State) (r : Shifted) : (s.flagsNZC r).iteration = s.iteration := rfl
@[simp] theorem State.flagsNZC_dmaResume (s : State) (r : Shifted) : (s.flagsNZC r).dmaResume = s.dmaResume := rfl

-- `flagsMul`

@[simp] theorem State.flagsMul_gpr (s : State) (v : Word) : (s.flagsMul v).gpr = s.gpr := rfl
@[simp] theorem State.flagsMul_pc (s : State) (v : Word) : (s.flagsMul v).pc = s.pc := rfl
@[simp] theorem State.flagsMul_cpsr (s : State) (v : Word) : (s.flagsMul v).cpsr = { s.cpsr with n := isNegative v, z := isZero v, c := Config.freeBit s.draws } := rfl
@[simp] theorem State.flagsMul_spsr (s : State) (v : Word) : (s.flagsMul v).spsr = s.spsr := rfl
@[simp] theorem State.flagsMul_lastUsrBank (s : State) (v : Word) : (s.flagsMul v).lastUsrBank = s.lastUsrBank := rfl
@[simp] theorem State.flagsMul_mem (s : State) (v : Word) : (s.flagsMul v).mem = s.mem := rfl
@[simp] theorem State.flagsMul_dev (s : State) (v : Word) : (s.flagsMul v).dev = s.dev := rfl
@[simp] theorem State.flagsMul_params (s : State) (v : Word) : (s.flagsMul v).params = s.params := rfl
@[simp] theorem State.flagsMul_draws (s : State) (v : Word) : (s.flagsMul v).draws = s.draws + 1 := rfl
@[simp] theorem State.flagsMul_iteration (s : State) (v : Word) : (s.flagsMul v).iteration = s.iteration := rfl
@[simp] theorem State.flagsMul_dmaResume (s : State) (v : Word) : (s.flagsMul v).dmaResume = s.dmaResume := rfl

-- `flagsMulLong`

@[simp] theorem State.flagsMulLong_gpr (s : State) (p : BitVec 64) : (s.flagsMulLong p).gpr = s.gpr := rfl
@[simp] theorem State.flagsMulLong_pc (s : State) (p : BitVec 64) : (s.flagsMulLong p).pc = s.pc := rfl
@[simp] theorem State.flagsMulLong_cpsr (s : State) (p : BitVec 64) : (s.flagsMulLong p).cpsr = { s.cpsr with
        n := p.getLsbD 63, z := p == 0#64, c := Config.freeBit s.draws, v := Config.freeBit (s.draws + 1) } := rfl
@[simp] theorem State.flagsMulLong_spsr (s : State) (p : BitVec 64) : (s.flagsMulLong p).spsr = s.spsr := rfl
@[simp] theorem State.flagsMulLong_lastUsrBank (s : State) (p : BitVec 64) : (s.flagsMulLong p).lastUsrBank = s.lastUsrBank := rfl
@[simp] theorem State.flagsMulLong_mem (s : State) (p : BitVec 64) : (s.flagsMulLong p).mem = s.mem := rfl
@[simp] theorem State.flagsMulLong_dev (s : State) (p : BitVec 64) : (s.flagsMulLong p).dev = s.dev := rfl
@[simp] theorem State.flagsMulLong_params (s : State) (p : BitVec 64) : (s.flagsMulLong p).params = s.params := rfl
@[simp] theorem State.flagsMulLong_draws (s : State) (p : BitVec 64) : (s.flagsMulLong p).draws = s.draws + 1 + 1 := rfl
@[simp] theorem State.flagsMulLong_iteration (s : State) (p : BitVec 64) : (s.flagsMulLong p).iteration = s.iteration := rfl
@[simp] theorem State.flagsMulLong_dmaResume (s : State) (p : BitVec 64) : (s.flagsMulLong p).dmaResume = s.dmaResume := rfl

-- `setDev`

@[simp] theorem State.setDev_gpr (s : State) (d : Devices) : (s.setDev d).gpr = s.gpr := rfl
@[simp] theorem State.setDev_pc (s : State) (d : Devices) : (s.setDev d).pc = s.pc := rfl
@[simp] theorem State.setDev_cpsr (s : State) (d : Devices) : (s.setDev d).cpsr = s.cpsr := rfl
@[simp] theorem State.setDev_spsr (s : State) (d : Devices) : (s.setDev d).spsr = s.spsr := rfl
@[simp] theorem State.setDev_lastUsrBank (s : State) (d : Devices) : (s.setDev d).lastUsrBank = s.lastUsrBank := rfl
@[simp] theorem State.setDev_mem (s : State) (d : Devices) : (s.setDev d).mem = s.mem := rfl
@[simp] theorem State.setDev_dev (s : State) (d : Devices) : (s.setDev d).dev = d := rfl
@[simp] theorem State.setDev_params (s : State) (d : Devices) : (s.setDev d).params = s.params := rfl
@[simp] theorem State.setDev_draws (s : State) (d : Devices) : (s.setDev d).draws = s.draws := rfl
@[simp] theorem State.setDev_iteration (s : State) (d : Devices) : (s.setDev d).iteration = s.iteration := rfl
@[simp] theorem State.setDev_dmaResume (s : State) (d : Devices) : (s.setDev d).dmaResume = s.dmaResume := rfl

-- `setMem`

@[simp] theorem State.setMem_gpr (s : State) (m : Memory) : (s.setMem m).gpr = s.gpr := rfl
@[simp] theorem State.setMem_pc (s : State) (m : Memory) : (s.setMem m).pc = s.pc := rfl
@[simp] theorem State.setMem_cpsr (s : State) (m : Memory) : (s.setMem m).cpsr = s.cpsr := rfl
@[simp] theorem State.setMem_spsr (s : State) (m : Memory) : (s.setMem m).spsr = s.spsr := rfl
@[simp] theorem State.setMem_lastUsrBank (s : State) (m : Memory) : (s.setMem m).lastUsrBank = s.lastUsrBank := rfl
@[simp] theorem State.setMem_mem (s : State) (m : Memory) : (s.setMem m).mem = m := rfl
@[simp] theorem State.setMem_dev (s : State) (m : Memory) : (s.setMem m).dev = s.dev := rfl
@[simp] theorem State.setMem_params (s : State) (m : Memory) : (s.setMem m).params = s.params := rfl
@[simp] theorem State.setMem_draws (s : State) (m : Memory) : (s.setMem m).draws = s.draws := rfl
@[simp] theorem State.setMem_iteration (s : State) (m : Memory) : (s.setMem m).iteration = s.iteration := rfl
@[simp] theorem State.setMem_dmaResume (s : State) (m : Memory) : (s.setMem m).dmaResume = s.dmaResume := rfl

-- `nextArm`

@[simp] theorem State.nextArm_gpr (s : State) : s.nextArm.gpr = s.gpr := rfl
@[simp] theorem State.nextArm_pc (s : State) : s.nextArm.pc = s.pc + 4 := rfl
@[simp] theorem State.nextArm_cpsr (s : State) : s.nextArm.cpsr = s.cpsr := rfl
@[simp] theorem State.nextArm_spsr (s : State) : s.nextArm.spsr = s.spsr := rfl
@[simp] theorem State.nextArm_lastUsrBank (s : State) : s.nextArm.lastUsrBank = s.lastUsrBank := rfl
@[simp] theorem State.nextArm_mem (s : State) : s.nextArm.mem = s.mem := rfl
@[simp] theorem State.nextArm_dev (s : State) : s.nextArm.dev = s.dev := rfl
@[simp] theorem State.nextArm_params (s : State) : s.nextArm.params = s.params := rfl
@[simp] theorem State.nextArm_draws (s : State) : s.nextArm.draws = s.draws := rfl
@[simp] theorem State.nextArm_iteration (s : State) : s.nextArm.iteration = s.iteration := rfl
@[simp] theorem State.nextArm_dmaResume (s : State) : s.nextArm.dmaResume = s.dmaResume := rfl

-- `nextThumb`

@[simp] theorem State.nextThumb_gpr (s : State) : s.nextThumb.gpr = s.gpr := rfl
@[simp] theorem State.nextThumb_pc (s : State) : s.nextThumb.pc = s.pc + 2 := rfl
@[simp] theorem State.nextThumb_cpsr (s : State) : s.nextThumb.cpsr = s.cpsr := rfl
@[simp] theorem State.nextThumb_spsr (s : State) : s.nextThumb.spsr = s.spsr := rfl
@[simp] theorem State.nextThumb_lastUsrBank (s : State) : s.nextThumb.lastUsrBank = s.lastUsrBank := rfl
@[simp] theorem State.nextThumb_mem (s : State) : s.nextThumb.mem = s.mem := rfl
@[simp] theorem State.nextThumb_dev (s : State) : s.nextThumb.dev = s.dev := rfl
@[simp] theorem State.nextThumb_params (s : State) : s.nextThumb.params = s.params := rfl
@[simp] theorem State.nextThumb_draws (s : State) : s.nextThumb.draws = s.draws := rfl
@[simp] theorem State.nextThumb_iteration (s : State) : s.nextThumb.iteration = s.iteration := rfl
@[simp] theorem State.nextThumb_dmaResume (s : State) : s.nextThumb.dmaResume = s.dmaResume := rfl

-- `begun`

@[simp] theorem State.begun_gpr (s : State) : s.begun.gpr = s.gpr := rfl
@[simp] theorem State.begun_pc (s : State) : s.begun.pc = s.pc := rfl
@[simp] theorem State.begun_cpsr (s : State) : s.begun.cpsr = s.cpsr := rfl
@[simp] theorem State.begun_spsr (s : State) : s.begun.spsr = s.spsr := rfl
@[simp] theorem State.begun_lastUsrBank (s : State) : s.begun.lastUsrBank = false := rfl
@[simp] theorem State.begun_mem (s : State) : s.begun.mem = s.mem := rfl
@[simp] theorem State.begun_dev (s : State) : s.begun.dev = s.dev := rfl
@[simp] theorem State.begun_params (s : State) : s.begun.params = s.params := rfl
@[simp] theorem State.begun_draws (s : State) : s.begun.draws = s.draws := rfl
@[simp] theorem State.begun_iteration (s : State) : s.begun.iteration = s.iteration := rfl
@[simp] theorem State.begun_dmaResume (s : State) : s.begun.dmaResume = s.dmaResume := rfl

-- `usrBankDone`

@[simp] theorem State.usrBankDone_gpr (s : State) : s.usrBankDone.gpr = s.gpr := rfl
@[simp] theorem State.usrBankDone_pc (s : State) : s.usrBankDone.pc = s.pc := rfl
@[simp] theorem State.usrBankDone_cpsr (s : State) : s.usrBankDone.cpsr = s.cpsr := rfl
@[simp] theorem State.usrBankDone_spsr (s : State) : s.usrBankDone.spsr = s.spsr := rfl
@[simp] theorem State.usrBankDone_lastUsrBank (s : State) : s.usrBankDone.lastUsrBank = true := rfl
@[simp] theorem State.usrBankDone_mem (s : State) : s.usrBankDone.mem = s.mem := rfl
@[simp] theorem State.usrBankDone_dev (s : State) : s.usrBankDone.dev = s.dev := rfl
@[simp] theorem State.usrBankDone_params (s : State) : s.usrBankDone.params = s.params := rfl
@[simp] theorem State.usrBankDone_draws (s : State) : s.usrBankDone.draws = s.draws := rfl
@[simp] theorem State.usrBankDone_iteration (s : State) : s.usrBankDone.iteration = s.iteration := rfl
@[simp] theorem State.usrBankDone_dmaResume (s : State) : s.usrBankDone.dmaResume = s.dmaResume := rfl

-- `drawByte`

@[simp] theorem State.drawByte_gpr (s : State) : s.drawByte.2.gpr = s.gpr := rfl
@[simp] theorem State.drawByte_pc (s : State) : s.drawByte.2.pc = s.pc := rfl
@[simp] theorem State.drawByte_cpsr (s : State) : s.drawByte.2.cpsr = s.cpsr := rfl
@[simp] theorem State.drawByte_spsr (s : State) : s.drawByte.2.spsr = s.spsr := rfl
@[simp] theorem State.drawByte_lastUsrBank (s : State) : s.drawByte.2.lastUsrBank = s.lastUsrBank := rfl
@[simp] theorem State.drawByte_mem (s : State) : s.drawByte.2.mem = s.mem := rfl
@[simp] theorem State.drawByte_dev (s : State) : s.drawByte.2.dev = s.dev := rfl
@[simp] theorem State.drawByte_params (s : State) : s.drawByte.2.params = s.params := rfl
@[simp] theorem State.drawByte_draws (s : State) : s.drawByte.2.draws = s.draws + 1 := rfl
@[simp] theorem State.drawByte_iteration (s : State) : s.drawByte.2.iteration = s.iteration := rfl
@[simp] theorem State.drawByte_dmaResume (s : State) : s.drawByte.2.dmaResume = s.dmaResume := rfl

-- `drawBit`

@[simp] theorem State.drawBit_gpr (s : State) : s.drawBit.2.gpr = s.gpr := rfl
@[simp] theorem State.drawBit_pc (s : State) : s.drawBit.2.pc = s.pc := rfl
@[simp] theorem State.drawBit_cpsr (s : State) : s.drawBit.2.cpsr = s.cpsr := rfl
@[simp] theorem State.drawBit_spsr (s : State) : s.drawBit.2.spsr = s.spsr := rfl
@[simp] theorem State.drawBit_lastUsrBank (s : State) : s.drawBit.2.lastUsrBank = s.lastUsrBank := rfl
@[simp] theorem State.drawBit_mem (s : State) : s.drawBit.2.mem = s.mem := rfl
@[simp] theorem State.drawBit_dev (s : State) : s.drawBit.2.dev = s.dev := rfl
@[simp] theorem State.drawBit_params (s : State) : s.drawBit.2.params = s.params := rfl
@[simp] theorem State.drawBit_draws (s : State) : s.drawBit.2.draws = s.draws + 1 := rfl
@[simp] theorem State.drawBit_iteration (s : State) : s.drawBit.2.iteration = s.iteration := rfl
@[simp] theorem State.drawBit_dmaResume (s : State) : s.drawBit.2.dmaResume = s.dmaResume := rfl

-- `setRegOf`, `setX`, `setXUsr`, `setSpsr`

@[simp] theorem State.setRegOf_cpsr (s : State) (m : Mode) (i : Reg) (v : Word) : (s.setRegOf m i v).cpsr = s.cpsr := by
  unfold State.setRegOf; split <;> rfl
@[simp] theorem State.setX_cpsr (s : State) (i : Reg) (v : Word) : (s.setX i v).cpsr = s.cpsr := by
  simp [State.setX]
@[simp] theorem State.setXUsr_cpsr (s : State) (i : Reg) (v : Word) : (s.setXUsr i v).cpsr = s.cpsr := by
  simp [State.setXUsr]
@[simp] theorem State.setRegOf_spsr (s : State) (m : Mode) (i : Reg) (v : Word) : (s.setRegOf m i v).spsr = s.spsr := by
  unfold State.setRegOf; split <;> rfl
@[simp] theorem State.setX_spsr (s : State) (i : Reg) (v : Word) : (s.setX i v).spsr = s.spsr := by
  simp [State.setX]
@[simp] theorem State.setXUsr_spsr (s : State) (i : Reg) (v : Word) : (s.setXUsr i v).spsr = s.spsr := by
  simp [State.setXUsr]
@[simp] theorem State.setRegOf_lastUsrBank (s : State) (m : Mode) (i : Reg) (v : Word) : (s.setRegOf m i v).lastUsrBank = s.lastUsrBank := by
  unfold State.setRegOf; split <;> rfl
@[simp] theorem State.setX_lastUsrBank (s : State) (i : Reg) (v : Word) : (s.setX i v).lastUsrBank = s.lastUsrBank := by
  simp [State.setX]
@[simp] theorem State.setXUsr_lastUsrBank (s : State) (i : Reg) (v : Word) : (s.setXUsr i v).lastUsrBank = s.lastUsrBank := by
  simp [State.setXUsr]
@[simp] theorem State.setRegOf_mem (s : State) (m : Mode) (i : Reg) (v : Word) : (s.setRegOf m i v).mem = s.mem := by
  unfold State.setRegOf; split <;> rfl
@[simp] theorem State.setX_mem (s : State) (i : Reg) (v : Word) : (s.setX i v).mem = s.mem := by
  simp [State.setX]
@[simp] theorem State.setXUsr_mem (s : State) (i : Reg) (v : Word) : (s.setXUsr i v).mem = s.mem := by
  simp [State.setXUsr]
@[simp] theorem State.setRegOf_dev (s : State) (m : Mode) (i : Reg) (v : Word) : (s.setRegOf m i v).dev = s.dev := by
  unfold State.setRegOf; split <;> rfl
@[simp] theorem State.setX_dev (s : State) (i : Reg) (v : Word) : (s.setX i v).dev = s.dev := by
  simp [State.setX]
@[simp] theorem State.setXUsr_dev (s : State) (i : Reg) (v : Word) : (s.setXUsr i v).dev = s.dev := by
  simp [State.setXUsr]
@[simp] theorem State.setRegOf_params (s : State) (m : Mode) (i : Reg) (v : Word) : (s.setRegOf m i v).params = s.params := by
  unfold State.setRegOf; split <;> rfl
@[simp] theorem State.setX_params (s : State) (i : Reg) (v : Word) : (s.setX i v).params = s.params := by
  simp [State.setX]
@[simp] theorem State.setXUsr_params (s : State) (i : Reg) (v : Word) : (s.setXUsr i v).params = s.params := by
  simp [State.setXUsr]
@[simp] theorem State.setRegOf_draws (s : State) (m : Mode) (i : Reg) (v : Word) : (s.setRegOf m i v).draws = s.draws := by
  unfold State.setRegOf; split <;> rfl
@[simp] theorem State.setX_draws (s : State) (i : Reg) (v : Word) : (s.setX i v).draws = s.draws := by
  simp [State.setX]
@[simp] theorem State.setXUsr_draws (s : State) (i : Reg) (v : Word) : (s.setXUsr i v).draws = s.draws := by
  simp [State.setXUsr]
@[simp] theorem State.setRegOf_iteration (s : State) (m : Mode) (i : Reg) (v : Word) : (s.setRegOf m i v).iteration = s.iteration := by
  unfold State.setRegOf; split <;> rfl
@[simp] theorem State.setX_iteration (s : State) (i : Reg) (v : Word) : (s.setX i v).iteration = s.iteration := by
  simp [State.setX]
@[simp] theorem State.setXUsr_iteration (s : State) (i : Reg) (v : Word) : (s.setXUsr i v).iteration = s.iteration := by
  simp [State.setXUsr]
@[simp] theorem State.setRegOf_dmaResume (s : State) (m : Mode) (i : Reg) (v : Word) : (s.setRegOf m i v).dmaResume = s.dmaResume := by
  unfold State.setRegOf; split <;> rfl
@[simp] theorem State.setX_dmaResume (s : State) (i : Reg) (v : Word) : (s.setX i v).dmaResume = s.dmaResume := by
  simp [State.setX]
@[simp] theorem State.setXUsr_dmaResume (s : State) (i : Reg) (v : Word) : (s.setXUsr i v).dmaResume = s.dmaResume := by
  simp [State.setXUsr]
@[simp] theorem State.setSpsr_gpr (s : State) (m : Mode) (p : Psr) : (s.setSpsr m p).gpr = s.gpr := by
  unfold State.setSpsr; split <;> rfl
@[simp] theorem State.setSpsr_pc (s : State) (m : Mode) (p : Psr) : (s.setSpsr m p).pc = s.pc := by
  unfold State.setSpsr; split <;> rfl
@[simp] theorem State.setSpsr_cpsr (s : State) (m : Mode) (p : Psr) : (s.setSpsr m p).cpsr = s.cpsr := by
  unfold State.setSpsr; split <;> rfl
@[simp] theorem State.setSpsr_lastUsrBank (s : State) (m : Mode) (p : Psr) : (s.setSpsr m p).lastUsrBank = s.lastUsrBank := by
  unfold State.setSpsr; split <;> rfl
@[simp] theorem State.setSpsr_mem (s : State) (m : Mode) (p : Psr) : (s.setSpsr m p).mem = s.mem := by
  unfold State.setSpsr; split <;> rfl
@[simp] theorem State.setSpsr_dev (s : State) (m : Mode) (p : Psr) : (s.setSpsr m p).dev = s.dev := by
  unfold State.setSpsr; split <;> rfl
@[simp] theorem State.setSpsr_params (s : State) (m : Mode) (p : Psr) : (s.setSpsr m p).params = s.params := by
  unfold State.setSpsr; split <;> rfl
@[simp] theorem State.setSpsr_draws (s : State) (m : Mode) (p : Psr) : (s.setSpsr m p).draws = s.draws := by
  unfold State.setSpsr; split <;> rfl
@[simp] theorem State.setSpsr_iteration (s : State) (m : Mode) (p : Psr) : (s.setSpsr m p).iteration = s.iteration := by
  unfold State.setSpsr; split <;> rfl
@[simp] theorem State.setSpsr_dmaResume (s : State) (m : Mode) (p : Psr) : (s.setSpsr m p).dmaResume = s.dmaResume := by
  unfold State.setSpsr; split <;> rfl

theorem State.setRegOf_reg {i : Reg} (h : i ≠ 15) (s : State) (m : Mode) (v : Word) :
    s.setRegOf m i v = { s with gpr := s.gpr.set (physReg m i) v } := by
  unfold State.setRegOf; exact if_neg h

theorem State.setRegOf_pcReg (s : State) (m : Mode) (v : Word) : s.setRegOf m 15 v = { s with pc := v } := rfl

theorem State.setX_reg {i : Reg} (h : i ≠ 15) (s : State) (v : Word) :
    s.setX i v = { s with gpr := s.gpr.set (physReg s.cpsr.mode i) v } := State.setRegOf_reg h s _ v

theorem State.setXUsr_reg {i : Reg} (h : i ≠ 15) (s : State) (v : Word) :
    s.setXUsr i v = { s with gpr := s.gpr.set (physReg .usr i) v } := State.setRegOf_reg h s _ v

/-- A write to a register below 15 leaves the pc alone. -/
theorem State.setX_pc {i : Reg} (h : i ≠ 15) (s : State) (v : Word) : (s.setX i v).pc = s.pc := by
  rw [State.setX_reg h]

/-- A low register of a Thumb instruction is below 15. -/
theorem low_ne (r : LowReg) : low r ≠ 15 := by revert r; decide

/-- A low register is banked in no mode (R33). -/
theorem banked_low (m : Mode) (r : LowReg) : banked m (low r) = false := by revert r; cases m <;> decide

/-- In a mode, two registers below 15 are two physical registers (R33). -/
theorem physReg_injective (m : Mode) : ∀ i j : Reg, i ≠ 15 → j ≠ 15 → physReg m i = physReg m j → i = j := by
  cases m <;> decide

/-- Reading back a written register. -/
theorem State.x_setX {i j : Reg} (hi : i ≠ 15) (hj : j ≠ 15) (s : State) (v : Word) :
    (s.setX i v).x j = if j = i then v else s.x j := by
  rw [State.setX_reg hi]
  show (s.gpr.set (physReg s.cpsr.mode i) v)[physReg s.cpsr.mode j] = _
  by_cases h : j = i
  · subst h; simp
  · rw [if_neg h]
    have hp : (physReg s.cpsr.mode i).val ≠ (physReg s.cpsr.mode j).val := fun e =>
      h (physReg_injective _ j i hj hi (Fin.ext e.symm))
    show (s.gpr.set (physReg s.cpsr.mode i).val v _)[(physReg s.cpsr.mode j).val] = s.gpr[(physReg s.cpsr.mode j).val]
    exact Vector.getElem_set_ne (h := hp) ..

end Sys2Proof.Machine
end

