-- ==== Sys2Proof/Laws/Bus.lean ====
section
/-!
SUPPORT. What a bus access can do, said once: a read changes only the count of free values; a write changes only memory
and the devices, memory only in the cells it stores to, and it keeps every part of the invariant.
-/

namespace Sys2Proof.Machine

-- Reads

/-- A byte read changes at most the count of free values. -/
theorem readByte_state (f : Bool) (a : Word) (s : State) : ∃ d, (readByte f a s).2 = { s with draws := d } := by
  have hs : s = { s with draws := s.draws } := rfl
  have hd : ∃ d, s.drawByte.2 = { s with draws := d } := ⟨_, rfl⟩
  unfold readByte
  split
  · exact ⟨_, hs⟩
  · exact ⟨_, hs⟩
  · exact ⟨_, hs⟩
  · exact ⟨_, hs⟩
  · exact ⟨_, hs⟩
  · split
    · exact ⟨_, hs⟩
    · exact hd
  · split
    · exact ⟨_, hs⟩
    · exact hd
  · split
    · exact ⟨_, hs⟩
    · exact hd
  · exact hd
  · exact hd

/-- A bus read changes at most the count of free values. -/
theorem busRead_state (f : Bool) (a : Word) (w : Width) (s : State) :
    ∃ d, (busRead f a w s).2 = { s with draws := d } := by
  cases w
  · exact readByte_state f a s
  · obtain ⟨d0, h0⟩ := readByte_state f a s
    obtain ⟨d1, h1⟩ := readByte_state f (a + 1) (readByte f a s).2
    exact ⟨d1, by show (readByte f (a + 1) (readByte f a s).2).2 = _; rw [h1, h0]⟩
  · obtain ⟨d0, h0⟩ := readByte_state f a s
    obtain ⟨d1, h1⟩ := readByte_state f (a + 1) (readByte f a s).2
    obtain ⟨d2, h2⟩ := readByte_state f (a + 2) (readByte f (a + 1) (readByte f a s).2).2
    obtain ⟨d3, h3⟩ := readByte_state f (a + 3) (readByte f (a + 2) (readByte f (a + 1) (readByte f a s).2).2).2
    exact ⟨d3, by
      show (readByte f (a + 3) (readByte f (a + 2) (readByte f (a + 1) (readByte f a s).2).2).2).2 = _
      rw [h3, h2, h1, h0]⟩

@[simp] theorem busRead_gpr (f : Bool) (a : Word) (w : Width) (s : State) : (busRead f a w s).2.gpr = s.gpr := by
  obtain ⟨d, h⟩ := busRead_state f a w s; rw [h]

@[simp] theorem busRead_pc (f : Bool) (a : Word) (w : Width) (s : State) : (busRead f a w s).2.pc = s.pc := by
  obtain ⟨d, h⟩ := busRead_state f a w s; rw [h]

@[simp] theorem busRead_cpsr (f : Bool) (a : Word) (w : Width) (s : State) : (busRead f a w s).2.cpsr = s.cpsr := by
  obtain ⟨d, h⟩ := busRead_state f a w s; rw [h]

@[simp] theorem busRead_spsr (f : Bool) (a : Word) (w : Width) (s : State) : (busRead f a w s).2.spsr = s.spsr := by
  obtain ⟨d, h⟩ := busRead_state f a w s; rw [h]

@[simp] theorem busRead_lastUsrBank (f : Bool) (a : Word) (w : Width) (s : State) : (busRead f a w s).2.lastUsrBank = s.lastUsrBank := by
  obtain ⟨d, h⟩ := busRead_state f a w s; rw [h]

@[simp] theorem busRead_mem (f : Bool) (a : Word) (w : Width) (s : State) : (busRead f a w s).2.mem = s.mem := by
  obtain ⟨d, h⟩ := busRead_state f a w s; rw [h]

@[simp] theorem busRead_dev (f : Bool) (a : Word) (w : Width) (s : State) : (busRead f a w s).2.dev = s.dev := by
  obtain ⟨d, h⟩ := busRead_state f a w s; rw [h]

@[simp] theorem busRead_params (f : Bool) (a : Word) (w : Width) (s : State) : (busRead f a w s).2.params = s.params := by
  obtain ⟨d, h⟩ := busRead_state f a w s; rw [h]

@[simp] theorem busRead_iteration (f : Bool) (a : Word) (w : Width) (s : State) : (busRead f a w s).2.iteration = s.iteration := by
  obtain ⟨d, h⟩ := busRead_state f a w s; rw [h]

@[simp] theorem busRead_dmaResume (f : Bool) (a : Word) (w : Width) (s : State) : (busRead f a w s).2.dmaResume = s.dmaResume := by
  obtain ⟨d, h⟩ := busRead_state f a w s; rw [h]

/-- A CPU read changes at most the count of free values. -/
theorem cpuRead_state (a : Word) (w : Width) (s : State) : ∃ d, (cpuRead a w s).2 = { s with draws := d } :=
  busRead_state _ a w s

theorem loadRotated_state (a : Word) (s : State) : ∃ d, (loadRotated a s).2 = { s with draws := d } :=
  cpuRead_state (align4 a) .word s

theorem loadHalfRotated_state (a : Word) (s : State) : ∃ d, (loadHalfRotated a s).2 = { s with draws := d } :=
  cpuRead_state (align2 a) .half s

theorem loadByteSigned_state (a : Word) (s : State) : ∃ d, (loadByteSigned a s).2 = { s with draws := d } :=
  cpuRead_state a .byte s

theorem loadHalfSigned_state (a : Word) (s : State) : ∃ d, (loadHalfSigned a s).2 = { s with draws := d } := by
  unfold loadHalfSigned
  split
  · exact loadByteSigned_state a s
  · exact cpuRead_state a .half s

/-- Loading a list changes at most the count of free values. -/
theorem loadList_state (a : Word) (regs : List Reg) (s : State) : ∃ d, (loadList a regs s).2 = { s with draws := d } := by
  induction regs generalizing a s with
  | nil => exact ⟨s.draws, rfl⟩
  | cons r rest ih =>
    obtain ⟨d0, h0⟩ := cpuRead_state (align4 a) .word s
    obtain ⟨d1, h1⟩ := ih (a + 4) (cpuRead (align4 a) .word s).2
    exact ⟨d1, by show (loadList (a + 4) rest (cpuRead (align4 a) .word s).2).2 = _; rw [h1, h0]⟩

/-- The registers a list loads, in order. -/
theorem loadList_regs (a : Word) (regs : List Reg) (s : State) : (loadList a regs s).1.map Prod.fst = regs := by
  induction regs generalizing a s with
  | nil => rfl
  | cons r rest ih => show r :: _ = _; rw [ih]

theorem fetch_state (s : State) : ∃ d, (fetch s).2 = { s with draws := d } := by
  unfold fetch
  split
  · exact busRead_state _ _ _ s
  · exact busRead_state _ _ _ s

-- Writes

@[simp] theorem ioWrite_gpr (s : State) (off : Nat) (b : Byte) : (ioWrite s off b).gpr = s.gpr := by
  unfold ioWrite; dsimp only; split <;> first | rfl | (split <;> rfl) | (unfold writeSoundCntH; split <;> rfl)

@[simp] theorem ioWrite_pc (s : State) (off : Nat) (b : Byte) : (ioWrite s off b).pc = s.pc := by
  unfold ioWrite; dsimp only; split <;> first | rfl | (split <;> rfl) | (unfold writeSoundCntH; split <;> rfl)

@[simp] theorem ioWrite_cpsr (s : State) (off : Nat) (b : Byte) : (ioWrite s off b).cpsr = s.cpsr := by
  unfold ioWrite; dsimp only; split <;> first | rfl | (split <;> rfl) | (unfold writeSoundCntH; split <;> rfl)

@[simp] theorem ioWrite_spsr (s : State) (off : Nat) (b : Byte) : (ioWrite s off b).spsr = s.spsr := by
  unfold ioWrite; dsimp only; split <;> first | rfl | (split <;> rfl) | (unfold writeSoundCntH; split <;> rfl)

@[simp] theorem ioWrite_lastUsrBank (s : State) (off : Nat) (b : Byte) : (ioWrite s off b).lastUsrBank = s.lastUsrBank := by
  unfold ioWrite; dsimp only; split <;> first | rfl | (split <;> rfl) | (unfold writeSoundCntH; split <;> rfl)

@[simp] theorem ioWrite_params (s : State) (off : Nat) (b : Byte) : (ioWrite s off b).params = s.params := by
  unfold ioWrite; dsimp only; split <;> first | rfl | (split <;> rfl) | (unfold writeSoundCntH; split <;> rfl)

@[simp] theorem ioWrite_draws (s : State) (off : Nat) (b : Byte) : (ioWrite s off b).draws = s.draws := by
  unfold ioWrite; dsimp only; split <;> first | rfl | (split <;> rfl) | (unfold writeSoundCntH; split <;> rfl)

@[simp] theorem ioWrite_iteration (s : State) (off : Nat) (b : Byte) : (ioWrite s off b).iteration = s.iteration := by
  unfold ioWrite; dsimp only; split <;> first | rfl | (split <;> rfl) | (unfold writeSoundCntH; split <;> rfl)

@[simp] theorem ioWrite_dmaResume (s : State) (off : Nat) (b : Byte) : (ioWrite s off b).dmaResume = s.dmaResume := by
  unfold ioWrite; dsimp only; split <;> first | rfl | (split <;> rfl) | (unfold writeSoundCntH; split <;> rfl)

@[simp] theorem writeByte_gpr (a : Word) (b : Byte) (s : State) : (writeByte a b s).gpr = s.gpr := by
  unfold writeByte; split <;> simp

@[simp] theorem writeByte_pc (a : Word) (b : Byte) (s : State) : (writeByte a b s).pc = s.pc := by
  unfold writeByte; split <;> simp

@[simp] theorem writeByte_cpsr (a : Word) (b : Byte) (s : State) : (writeByte a b s).cpsr = s.cpsr := by
  unfold writeByte; split <;> simp

@[simp] theorem writeByte_spsr (a : Word) (b : Byte) (s : State) : (writeByte a b s).spsr = s.spsr := by
  unfold writeByte; split <;> simp

@[simp] theorem writeByte_lastUsrBank (a : Word) (b : Byte) (s : State) : (writeByte a b s).lastUsrBank = s.lastUsrBank := by
  unfold writeByte; split <;> simp

@[simp] theorem writeByte_params (a : Word) (b : Byte) (s : State) : (writeByte a b s).params = s.params := by
  unfold writeByte; split <;> simp

@[simp] theorem writeByte_draws (a : Word) (b : Byte) (s : State) : (writeByte a b s).draws = s.draws := by
  unfold writeByte; split <;> simp

@[simp] theorem writeByte_iteration (a : Word) (b : Byte) (s : State) : (writeByte a b s).iteration = s.iteration := by
  unfold writeByte; split <;> simp

@[simp] theorem writeByte_dmaResume (a : Word) (b : Byte) (s : State) : (writeByte a b s).dmaResume = s.dmaResume := by
  unfold writeByte; split <;> simp

@[simp] theorem busWrite_gpr (a : Word) (w : Width) (v : Word) (s : State) : (busWrite a w v s).gpr = s.gpr := by
  unfold busWrite; dsimp only; split
  · split <;> simp
  · simp
  · simp

@[simp] theorem busWrite_pc (a : Word) (w : Width) (v : Word) (s : State) : (busWrite a w v s).pc = s.pc := by
  unfold busWrite; dsimp only; split
  · split <;> simp
  · simp
  · simp

@[simp] theorem busWrite_cpsr (a : Word) (w : Width) (v : Word) (s : State) : (busWrite a w v s).cpsr = s.cpsr := by
  unfold busWrite; dsimp only; split
  · split <;> simp
  · simp
  · simp

@[simp] theorem busWrite_spsr (a : Word) (w : Width) (v : Word) (s : State) : (busWrite a w v s).spsr = s.spsr := by
  unfold busWrite; dsimp only; split
  · split <;> simp
  · simp
  · simp

@[simp] theorem busWrite_lastUsrBank (a : Word) (w : Width) (v : Word) (s : State) : (busWrite a w v s).lastUsrBank = s.lastUsrBank := by
  unfold busWrite; dsimp only; split
  · split <;> simp
  · simp
  · simp

@[simp] theorem busWrite_params (a : Word) (w : Width) (v : Word) (s : State) : (busWrite a w v s).params = s.params := by
  unfold busWrite; dsimp only; split
  · split <;> simp
  · simp
  · simp

@[simp] theorem busWrite_draws (a : Word) (w : Width) (v : Word) (s : State) : (busWrite a w v s).draws = s.draws := by
  unfold busWrite; dsimp only; split
  · split <;> simp
  · simp
  · simp

@[simp] theorem busWrite_iteration (a : Word) (w : Width) (v : Word) (s : State) : (busWrite a w v s).iteration = s.iteration := by
  unfold busWrite; dsimp only; split
  · split <;> simp
  · simp
  · simp

@[simp] theorem busWrite_dmaResume (a : Word) (w : Width) (v : Word) (s : State) : (busWrite a w v s).dmaResume = s.dmaResume := by
  unfold busWrite; dsimp only; split
  · split <;> simp
  · simp
  · simp

/-- A CPU write that is not stopped is the bus write. -/
theorem cpuWrite_ok {a : Word} {w : Width} {v : Word} {s t : State} (h : cpuWrite a w v s = .ok t) :
    t = busWrite a w v s := by
  unfold cpuWrite at h
  split at h
  · cases h
  · dsimp only at h
    split at h
    · cases h
    · injection h with h; exact h.symm

-- Memory and the invariant under a write

/-- Where a byte of `SOUNDCNT_H` lies (R561, R580). -/
theorem ioRegAt_soundCntH {off k : Nat} (ho : off < 0x400) (h : ioRegAt off = (.soundCntH, k)) :
    off = 0x82 + k ∧ k < 2 := by
  have all : ∀ off : Fin 0x400, (ioRegAt off).1 = .soundCntH →
      off.val = 0x82 + (ioRegAt off).2 ∧ (ioRegAt off).2 < 2 := by decide +kernel
  have := all ⟨off, ho⟩
  rw [h] at this
  exact this rfl

/-- A write to an I/O byte changes memory at most in that byte's cell. -/
theorem ioWrite_mem (s : State) {off : Nat} (ho : off < 0x400) (b : Byte) :
    (ioWrite s off b).mem = s.mem ∨ ∃ v, (ioWrite s off b).mem = s.mem.write (ioCell off) v := by
  unfold ioWrite
  dsimp only
  split
  case h_1 => exact .inr ⟨b, rfl⟩
  case h_2 k h =>
    obtain ⟨ho, hk⟩ := ioRegAt_soundCntH ho h
    unfold writeSoundCntH
    split
    · next h0 => exact .inr ⟨b, by rw [ho, h0]; rfl⟩
    · next h0 =>
      have : k = 1 := by omega
      exact .inr ⟨b &&& 0x77#8, by rw [ho, this]; rfl⟩
  all_goals first
    | exact .inl rfl
    | (split <;> exact .inl rfl)

/-- A byte write changes memory at most in the address's cell. -/
theorem writeByte_mem (a : Word) (b : Byte) (s : State) :
    (writeByte a b s).mem = s.mem ∨ ∃ v, (writeByte a b s).mem = s.mem.write (cell s.bus a) v := by
  unfold writeByte
  split
  case h_6 h =>
    rw [cell_io h]
    exact ioWrite_mem s (regionOffset_io h) b
  all_goals first
    | exact .inl rfl
    | exact .inr ⟨b, rfl⟩

/-- A byte write leaves every other cell as it was. -/
theorem writeByte_read {a : Word} {n : Nat} {s : State} (h : n ≠ cell s.bus a) (b : Byte) :
    (writeByte a b s).mem.read n = s.mem.read n := by
  rcases writeByte_mem a b s with e | ⟨v, e⟩
  · rw [e]
  · rw [e, Memory.read_write_other h]

/-- A property of states that a write of any byte keeps is kept by a write of any width. -/
theorem busWrite_induction {P : State → Prop} (hb : ∀ (a : Word) (b : Byte) (s : State), P s → P (writeByte a b s))
    (a : Word) (w : Width) (v : Word) (s : State) (hs : P s) : P (busWrite a w v s) := by
  unfold busWrite
  dsimp only
  cases w with
  | byte =>
    cases byteWriteAt a s with
    | single => exact hb _ _ _ hs
    | both => exact hb _ _ _ (hb _ _ _ hs)
    | ignored => exact hs
  | half => exact hb _ _ _ (hb _ _ _ hs)
  | word => exact hb _ _ _ (hb _ _ _ (hb _ _ _ (hb _ _ _ hs)))

/-- A write leaves every cell it does not store to as it was. -/
theorem busWrite_read {a : Word} {w : Width} {n : Nat} {s : State} (h : n ∉ storedCells a w s) (v : Word) :
    (busWrite a w v s).mem.read n = s.mem.read n := by
  unfold busWrite
  unfold storedCells at h
  dsimp only
  cases w with
  | byte =>
    cases hw : byteWriteAt a s with
    | single =>
      simp only [hw, List.mem_singleton] at h
      exact writeByte_read h _
    | both =>
      simp only [hw, List.mem_cons, not_or, List.not_mem_nil, not_false_eq_true, and_true] at h
      exact (writeByte_read (by simpa using h.2) _).trans (writeByte_read h.1 _)
    | ignored => rfl
  | half =>
    simp only [List.mem_cons, not_or, List.not_mem_nil, not_false_eq_true, and_true] at h
    exact (writeByte_read (by simpa using h.2) _).trans (writeByte_read h.1 _)
  | word =>
    simp only [List.mem_cons, not_or, List.not_mem_nil, not_false_eq_true, and_true] at h
    exact (writeByte_read (by simpa using h.2.2.2) _).trans ((writeByte_read (by simpa using h.2.2.1) _).trans
      ((writeByte_read (by simpa using h.2.1) _).trans (writeByte_read h.1 _)))

theorem writeByte_wf (a : Word) (b : Byte) (s : State) (h : s.mem.wf) : (writeByte a b s).mem.wf := by
  rcases writeByte_mem a b s with e | ⟨v, e⟩
  · rw [e]; exact h
  · rw [e]; exact Memory.write_wf h _ _

/-- A write keeps the canonical form of memory. -/
theorem busWrite_wf (a : Word) (w : Width) (v : Word) (s : State) (h : s.mem.wf) : (busWrite a w v s).mem.wf :=
  busWrite_induction writeByte_wf a w v s h

theorem writeByte_cells (a : Word) (b : Byte) (s : State) (h : CellsStored s.mem) :
    CellsStored (writeByte a b s).mem := by
  by_cases hs : regionSize (region s.bus a) = 0
  · unfold writeByte
    split <;> first | exact h | (next hr => rw [hr] at hs; cases hs)
  · rcases writeByte_mem a b s with e | ⟨v, e⟩
    · rw [e]; exact h
    · rw [e]
      intro c hc
      rcases Memory.mem_write hc with rfl | hc
      · exact ⟨region s.bus a, regionOffset s.bus a, regionOffset_lt hs, rfl⟩
      · exact h c hc

theorem Fifo.push_length (q : Fifo) (b : Byte) (h : q.bytes.length ≤ 32) : (q.push b).bytes.length ≤ 32 := by
  unfold Fifo.push
  split
  · simp; omega
  · exact h

theorem ioWrite_fifos (s : State) (off : Nat) (b : Byte) (h : FifosBounded s.dev) :
    FifosBounded (ioWrite s off b).dev := by
  obtain ⟨ha, hb⟩ := h
  unfold ioWrite
  dsimp only
  split
  case h_2 =>
    unfold writeSoundCntH
    split
    · exact ⟨ha, hb⟩
    · dsimp only
      constructor <;> (split <;> split <;> simp [Fifo.clear] <;> assumption)
  case h_5 => exact ⟨Fifo.push_length _ _ ha, hb⟩
  case h_6 => exact ⟨ha, Fifo.push_length _ _ hb⟩
  all_goals first
    | exact ⟨ha, hb⟩
    | (split <;> exact ⟨ha, hb⟩)

theorem writeByte_fifos (a : Word) (b : Byte) (s : State) (h : FifosBounded s.dev) :
    FifosBounded (writeByte a b s).dev := by
  unfold writeByte
  split
  case h_6 => exact ioWrite_fifos s _ b h
  all_goals exact h

/-- One channel of the property `DmaSound`. -/
abbrev DmaChannel.sound (c : DmaChannel) (n : Fin 4) : Prop :=
  (c.due = true → c.armed = true) ∧ c.ctl &&& ~~~dmaCtlMask n = 0

theorem DmaSound.set {d : Devices} (h : DmaSound d) {n : Fin 4} {c : DmaChannel} (hc : c.sound n) :
    DmaSound (d.setDma n c) := by
  intro m
  by_cases hm : n = m
  · subst hm
    have e : (d.setDma n c).dma[n] = c := by simp [Devices.setDma]
    rw [e]
    exact hc
  · have hv : n.val ≠ m.val := fun e => hm (Fin.ext e)
    have : (d.setDma n c).dma[m] = d.dma[m] := by
      show (d.dma.set n.val c n.isLt)[m.val] = d.dma[m.val]
      exact Vector.getElem_set_ne (h := hv) ..
    rw [this]
    exact h m

theorem DmaChannel.writeCtl_sound (c : DmaChannel) (n : Fin 4) (v : Half) : (c.writeCtl n v).sound n := by
  have hm : (v &&& dmaCtlMask n) &&& ~~~dmaCtlMask n = 0 := by ext k hk; simp
  unfold DmaChannel.writeCtl
  dsimp only
  split
  · exact ⟨fun h => Bool.noConfusion h, hm⟩
  · next h0 =>
    split
    · exact ⟨fun _ => by simpa [DmaChannel.armed] using h0, hm⟩
    · exact ⟨fun _ => by simpa [DmaChannel.armed] using h0, hm⟩

theorem ioWrite_dma (s : State) (off : Nat) (b : Byte) (h : DmaSound s.dev) : DmaSound (ioWrite s off b).dev := by
  unfold ioWrite
  dsimp only
  split
  case h_2 =>
    unfold writeSoundCntH
    split
    · exact h
    · dsimp only
      split <;> split <;> exact h
  case h_7 n _ _ => exact DmaSound.set h ⟨(h n).1, (h n).2⟩
  case h_8 n _ _ => exact DmaSound.set h ⟨(h n).1, (h n).2⟩
  case h_9 n _ _ => exact DmaSound.set h ⟨(h n).1, (h n).2⟩
  case h_10 n _ _ => exact DmaSound.set h (DmaChannel.writeCtl_sound _ _ _)
  all_goals first
    | exact h
    | (split <;> exact h)

theorem writeByte_dma (a : Word) (b : Byte) (s : State) (h : DmaSound s.dev) : DmaSound (writeByte a b s).dev := by
  unfold writeByte
  split
  case h_6 => exact ioWrite_dma s _ b h
  all_goals exact h

/-- A write keeps the parts of the invariant that speak of memory and the devices. -/
theorem busWrite_inv (a : Word) (w : Width) (v : Word) (s : State)
    (h : s.mem.wf ∧ CellsStored s.mem ∧ FifosBounded s.dev ∧ DmaSound s.dev) :
    (busWrite a w v s).mem.wf ∧ CellsStored (busWrite a w v s).mem ∧ FifosBounded (busWrite a w v s).dev ∧
      DmaSound (busWrite a w v s).dev :=
  busWrite_induction (P := fun s => s.mem.wf ∧ CellsStored s.mem ∧ FifosBounded s.dev ∧ DmaSound s.dev)
    (fun a b s h => ⟨writeByte_wf a b s h.1, writeByte_cells a b s h.2.1, writeByte_fifos a b s h.2.2.1,
      writeByte_dma a b s h.2.2.2⟩) a w v s h

/-- A write leaves the registers, the status registers and the parameters as they were. -/
theorem busWrite_frame (a : Word) (w : Width) (v : Word) (s : State) :
    busWrite a w v s = { s with mem := (busWrite a w v s).mem, dev := (busWrite a w v s).dev } := by
  rcases h : busWrite a w v s with ⟨gpr, pc, cpsr, spsr, lub, mem, dev, params, draws, iter, dr⟩
  have h1 := busWrite_gpr a w v s
  have h2 := busWrite_pc a w v s
  have h3 := busWrite_cpsr a w v s
  have h4 := busWrite_spsr a w v s
  have h5 := busWrite_lastUsrBank a w v s
  have h6 := busWrite_params a w v s
  have h7 := busWrite_draws a w v s
  have h8 := busWrite_iteration a w v s
  have h9 := busWrite_dmaResume a w v s
  rw [h] at h1 h2 h3 h4 h5 h6 h7 h8 h9
  dsimp only at h1 h2 h3 h4 h5 h6 h7 h8 h9
  subst h1 h2 h3 h4 h5 h6 h7 h8 h9
  rfl

/-- Storing a list of words: a property kept by every bus write is kept by the list. -/
theorem storeList_induction {P : State → Prop}
    (hw : ∀ (a : Word) (v : Word) (s : State), P s → P (busWrite (align4 a) .word v s)) (a : Word) (vs : List Word)
    (s t : State) (h : storeList a vs s = .ok t) (hs : P s) : P t := by
  induction vs generalizing a s with
  | nil => cases h; exact hs
  | cons v rest ih =>
    unfold storeList at h
    cases hc : storeAligned a v s with
    | error e => rw [hc] at h; cases h
    | ok s1 =>
      rw [hc] at h
      refine ih (a + 4) s1 h ?_
      rw [cpuWrite_ok hc]
      exact hw a v s hs

end Sys2Proof.Machine
end

