-- ==== Sys2Proof/Laws/Decode.lean ====
section
/-!
SUPPORT. Lemmas about words: the fields of concatenated bit vectors, the condition and shift fields, and the rows of the
opcode table.
-/

namespace Sys2Proof

@[simp] theorem Cond.ofBits_bits (c : Cond) : Cond.ofBits c.bits = c := by cases c <;> rfl

@[simp] theorem Shift.ofBits_bits (sh : Shift) : Shift.ofBits sh.bits = sh := by cases sh <;> rfl

theorem Cond.bits_ofBits (b : BitVec 4) : (Cond.ofBits b).bits = b := by revert b; decide

theorem Shift.bits_ofBits (b : BitVec 2) : (Shift.ofBits b).bits = b := by revert b; decide

theorem ofBool_bit (b : Bool) : (BitVec.ofBool b).getLsbD 0 = b := by simp

theorem append_extract_lo {v w k l : Nat} (x : BitVec v) (y : BitVec w) (h : k + l ≤ w) :
    (BitVec.append x y).extractLsb' k l = y.extractLsb' k l :=
  BitVec.extractLsb'_append_eq_of_add_le h

theorem append_extract_hi {v w k l : Nat} (x : BitVec v) (y : BitVec w) (h : w ≤ k) :
    (BitVec.append x y).extractLsb' k l = x.extractLsb' (k - w) l :=
  BitVec.extractLsb'_append_eq_of_le h

theorem append_bit_lo {v w k : Nat} (x : BitVec v) (y : BitVec w) (h : k < w) :
    (BitVec.append x y).getLsbD k = y.getLsbD k := by
  show (x ++ y).getLsbD k = _
  simp [BitVec.getLsbD_append, h]

theorem append_bit_hi {v w k : Nat} (x : BitVec v) (y : BitVec w) (h : w ≤ k) :
    (BitVec.append x y).getLsbD k = x.getLsbD (k - w) := by
  show (x ++ y).getLsbD k = _
  simp [BitVec.getLsbD_append, Nat.not_lt.mpr h]

/-- Two rows that ask different things of a bit both look at match no word together. -/
theorem Row.disjoint {n : Nat} {r q : Row n} (h : (r.pattern ^^^ q.pattern) &&& r.mask &&& q.mask ≠ 0) (w : BitVec n)
    (hr : r.matches w = true) : q.matches w = false := by
  unfold Row.matches at *
  rw [beq_iff_eq] at hr
  rw [beq_eq_false_iff_ne]
  intro hq
  apply h
  rw [← hr, ← hq]
  ext k hk
  simp
  cases w[k] <;> cases r.mask[k] <;> cases q.mask[k] <;> simp

/-- No two ARM rows match one word (R150). -/
theorem armRows_pairwise :
    armRows.Pairwise (fun r q => (r.pattern ^^^ q.pattern) &&& r.mask &&& q.mask ≠ 0) := by decide +kernel

/-- No two Thumb rows match one halfword (R150). -/
theorem thumbRows_pairwise :
    thumbRows.Pairwise (fun r q => (r.pattern ^^^ q.pattern) &&& r.mask &&& q.mask ≠ 0) := by decide +kernel

/-- In a list of rows of which no two match one word, the lookup gives the row that matches. -/
theorem lookupRow_eq {n : Nat} {rows : List (Row n)}
    (hp : rows.Pairwise (fun r q => (r.pattern ^^^ q.pattern) &&& r.mask &&& q.mask ≠ 0)) {r : Row n} (hr : r ∈ rows)
    {w : BitVec n} (hw : r.matches w = true) : lookupRow rows w = some (r.build w) := by
  suffices h : rows.find? (fun r => r.matches w) = some r by simp [lookupRow, h]
  induction rows with
  | nil => cases hr
  | cons q rest ih =>
    obtain ⟨hq, hrest⟩ := List.pairwise_cons.mp hp
    by_cases hm : q.matches w = true
    · rcases List.mem_cons.mp hr with rfl | hr'
      · simp [hm]
      · exact absurd hw (by simp [Row.disjoint (hq r hr') w hm])
    · rcases List.mem_cons.mp hr with rfl | hr'
      · exact absurd hw hm
      · simpa [List.find?, hm] using ih hrest hr'

end Sys2Proof
end

