-- ==== Sys2Proof/Laws/Gate.lean ====
section
/-!
SUPPORT. What comes before an instruction's effect, said once: when the effect runs, when it is skipped, and what a next
state tells of it.
-/

namespace Sys2Proof.Machine

-- UNPREDICTABLE cases

theorem unpredIf_false (s : State) (k : Unpredictable) (e : Outcome) : unpredIf s false k e = e := rfl

theorem unpredIf_lenient {s : State} (h : s.strict = false) (w : Bool) (k : Unpredictable) (e : Outcome) :
    unpredIf s w k e = e := by simp [unpredIf, h]

theorem unpredIf_neg {s : State} {w : Bool} (h : w = false) (k : Unpredictable) (e : Outcome) :
    unpredIf s w k e = e := by simp [unpredIf, h]

theorem stopIf_neg {w : Bool} (h : w = false) (k : Unpredictable) (e : Outcome) : stopIf w k e = e := by
  simp [stopIf, h]

/-- A next state comes from the effect, past a case that a strict machine stops. -/
theorem unpredIf_next {s : State} {w : Bool} {k : Unpredictable} {e : Outcome} {t : State}
    (h : unpredIf s w k e = .next t) : e = .next t := by
  unfold unpredIf at h
  split at h
  · cases h
  · exact h

/-- A next state comes from the effect, past a case that stops every machine. -/
theorem stopIf_next {w : Bool} {k : Unpredictable} {e : Outcome} {t : State} (h : stopIf w k e = .next t) :
    w = false ∧ e = .next t := by
  unfold stopIf at h
  split at h
  · cases h
  · next hw => exact ⟨by simpa using hw, h⟩

/-- A next state comes from a result that is no fault. -/
theorem orFault_next {α : Type} {r : Except Fault α} {k : α → Outcome} {t : State} (h : orFault r k = .next t) :
    ∃ a, r = .ok a ∧ k a = .next t := by
  unfold orFault at h
  split at h
  · exact ⟨_, rfl, h⟩
  · cases h

-- The gates

theorem usrBankHazard_low (regs : List LowReg) (s : State) : usrBankHazard (regs.map low) s = false := by
  have : (regs.map low).any (banked s.cpsr.mode) = false := by
    rw [List.any_map]
    exact List.any_eq_false.mpr fun r _ => by simp [banked_low]
  simp [usrBankHazard, this]

/-- The effect runs when nothing hinders it. -/
theorem afterHazard_run {s : State} (h : s.strict = false ∨ s.lastUsrBank = false) (regs : List Reg)
    (body : State → Outcome) : afterHazard regs s body = body s.begun := by
  unfold afterHazard usrBankHazard
  rcases h with h | h <;> simp [h]

/-- The reserved condition never passes. -/
theorem condPassed_nv {c : Cond} {p : Cpsr} (h : condPassed c p = true) : c ≠ .nv := by
  rintro rfl; cases h

/-- An ARM instruction runs its effect. -/
theorem armGate_run {c : Cond} {sb : Bool} {s : State} (hc : condPassed c s.cpsr = true)
    (h : s.strict = false ∨ (sb = true ∧ s.lastUsrBank = false)) (regs : List Reg) (body : State → Outcome) :
    armGate c sb regs s body = body s.begun := by
  unfold armGate
  rw [if_neg (condPassed_nv hc), hc]
  simp only [Bool.not_true, Bool.false_eq_true, if_false]
  rcases h with h | ⟨h1, h2⟩
  · rw [unpredIf_lenient h, afterHazard_run (.inl h)]
  · rw [unpredIf_neg (by simp [h1]), afterHazard_run (.inr h2)]

/-- An ARM instruction whose condition fails only advances the pc. -/
theorem armGate_skip {c : Cond} {s : State} (hn : c ≠ .nv) (hc : condPassed c s.cpsr = false) (sb : Bool)
    (regs : List Reg) (body : State → Outcome) : armGate c sb regs s body = .next s.begun.nextArm := by
  unfold armGate
  rw [if_neg hn, hc]
  rfl

/-- A Thumb instruction runs its effect. -/
theorem thumbGate_run {s : State} (h : s.strict = false ∨ s.lastUsrBank = false) (regs : List Reg)
    (body : State → Outcome) : thumbGate regs s body = body s.begun := afterHazard_run h regs body

/-- `banked` is `bankOf` naming another column than the User one, R15 apart. -/
theorem banked_iff (m : Mode) (i : Reg) : banked m i = true ↔ i ≠ 15 ∧ bankOf m i ≠ .usr := by
  revert i
  cases m <;> decide

/-- The hazard of R611 stops an instruction. -/
theorem afterHazard_stop {regs : List Reg} {s : State} (h : usrBankHazard regs s = true) (body : State → Outcome) :
    afterHazard regs s body = .fault (.hazard .usrBankNext) := by simp [afterHazard, h]

/-- The hazard of R611 stops an ARM instruction whose condition passes and whose should-be fields are right. -/
theorem armGate_stop {c : Cond} {regs : List Reg} {s : State} (hc : condPassed c s.cpsr = true)
    (h : usrBankHazard regs s = true) (body : State → Outcome) :
    armGate c true regs s body = .fault (.hazard .usrBankNext) := by
  unfold armGate
  rw [if_neg (condPassed_nv hc), hc]
  exact afterHazard_stop h body

/-- Without the hazard of R611 a User-bank transfer just before leaves no trace. -/
theorem afterHazard_unmarked {regs : List Reg} {s : State} (h : usrBankHazard regs s = false) (body : State → Outcome) :
    afterHazard regs s body = afterHazard regs { s with lastUsrBank := false } body := by
  unfold afterHazard
  rw [h, show usrBankHazard regs { s with lastUsrBank := false } = false from rfl]
  rfl

/-- A Thumb instruction of low registers runs its effect. -/
theorem thumbGate_low (regs : List LowReg) (s : State) (body : State → Outcome) :
    thumbGate (regs.map low) s body = body s.begun := by
  unfold thumbGate afterHazard
  rw [usrBankHazard_low]
  rfl

theorem afterHazard_next {regs : List Reg} {s t : State} {body : State → Outcome}
    (h : afterHazard regs s body = .next t) : body s.begun = .next t := by
  unfold afterHazard at h
  split at h
  · cases h
  · exact h

/-- A next state of an ARM instruction: the pc advanced, or its effect. -/
theorem armGate_next {c : Cond} {sb : Bool} {regs : List Reg} {s t : State} {body : State → Outcome}
    (h : armGate c sb regs s body = .next t) :
    t = s.begun.nextArm ∨ (condPassed c s.cpsr = true ∧ body s.begun = .next t) := by
  unfold armGate at h
  split at h
  · have := unpredIf_next h
    injection this with this
    exact .inl this.symm
  · split at h
    · injection h with h
      exact .inl h.symm
    · next hc => exact .inr ⟨by simpa using hc, afterHazard_next (unpredIf_next h)⟩

/-- A next state of a Thumb instruction is one of its effect. -/
theorem thumbGate_next {regs : List Reg} {s t : State} {body : State → Outcome}
    (h : thumbGate regs s body = .next t) : body s.begun = .next t := afterHazard_next h

end Sys2Proof.Machine
end

