-- ==== Sys2Proof/Laws/PerInstr.lean ====
section
/-!
SUPPORT. The family `Encoding`: the word of a well-formed instruction matches a row of the opcode table, and that row
reads the instruction back from it (spec/30_encoding.md rules R150-R152).  One lemma per constructor.
-/

set_option linter.unusedSimpArgs false

namespace Sys2Proof.Laws.Encoding

/-- The word of a well-formed instruction matches some row of its table, and the row reads the instruction from it. -/
def Statement (i : Instr) : Prop :=
  i.WellFormed →
    match encode i with
    | .arm w => ∃ (k : Nat) (r : Row 32), armRows[k]? = some r ∧ r.matches w = true ∧ r.build w = i
    | .thumb h => ∃ (k : Nat) (r : Row 16), thumbRows[k]? = some r ∧ r.matches h = true ∧ r.build h = i

theorem andImm (c s rn rd rot imm8) : Statement (.andImm c s rn rd rot imm8) := by
  refine fun _ => ⟨0, _, rfl, ?_, ?_⟩
  · show (c.bits ++ 0b0010000#7 ++ BitVec.ofBool s ++ rn ++ rd ++ rot ++ imm8 &&&
      (0#4 ++ 127#7 ++ 0#1 ++ 0#4 ++ 0#4 ++ 0#4 ++ 0#8) == 0#4 ++ 0b0010000#7 ++ 0#1 ++ 0#4 ++ 0#4 ++ 0#4 ++ 0#8) = true
    simp only [BitVec.and_append, BitVec.and_zero, BitVec.reduceAnd, beq_self_eq_true]
  · simp only [condAt, shiftAt, HAppend.hAppend, append_extract_lo, append_extract_hi, append_bit_lo, append_bit_hi,
      BitVec.extractLsb'_eq_self, Nat.reduceAdd, Nat.reduceLeDiff, Nat.reduceSub, Nat.reduceLT,
      Cond.ofBits_bits, Shift.ofBits_bits, ofBool_bit]

theorem andRsi (c s rn rd amt sh rm) : Statement (.andRsi c s rn rd amt sh rm) := by
  refine fun _ => ⟨1, _, rfl, ?_, ?_⟩
  · show (c.bits ++ 0b0000000#7 ++ BitVec.ofBool s ++ rn ++ rd ++ amt ++ sh.bits ++ 0b0#1 ++ rm &&&
      (0#4 ++ 127#7 ++ 0#1 ++ 0#4 ++ 0#4 ++ 0#5 ++ 0#2 ++ 1#1 ++ 0#4) == 0#4 ++ 0b0000000#7 ++ 0#1 ++ 0#4 ++ 0#4 ++ 0#5 ++ 0#2 ++ 0b0#1 ++ 0#4) = true
    simp only [BitVec.and_append, BitVec.and_zero, BitVec.reduceAnd, beq_self_eq_true]
  · simp only [condAt, shiftAt, HAppend.hAppend, append_extract_lo, append_extract_hi, append_bit_lo, append_bit_hi,
      BitVec.extractLsb'_eq_self, Nat.reduceAdd, Nat.reduceLeDiff, Nat.reduceSub, Nat.reduceLT,
      Cond.ofBits_bits, Shift.ofBits_bits, ofBool_bit]

theorem andRsr (c s rn rd rs sh rm) : Statement (.andRsr c s rn rd rs sh rm) := by
  refine fun _ => ⟨2, _, rfl, ?_, ?_⟩
  · show (c.bits ++ 0b0000000#7 ++ BitVec.ofBool s ++ rn ++ rd ++ rs ++ 0b0#1 ++ sh.bits ++ 0b1#1 ++ rm &&&
      (0#4 ++ 127#7 ++ 0#1 ++ 0#4 ++ 0#4 ++ 0#4 ++ 1#1 ++ 0#2 ++ 1#1 ++ 0#4) == 0#4 ++ 0b0000000#7 ++ 0#1 ++ 0#4 ++ 0#4 ++ 0#4 ++ 0b0#1 ++ 0#2 ++ 0b1#1 ++ 0#4) = true
    simp only [BitVec.and_append, BitVec.and_zero, BitVec.reduceAnd, beq_self_eq_true]
  · simp only [condAt, shiftAt, HAppend.hAppend, append_extract_lo, append_extract_hi, append_bit_lo, append_bit_hi,
      BitVec.extractLsb'_eq_self, Nat.reduceAdd, Nat.reduceLeDiff, Nat.reduceSub, Nat.reduceLT,
      Cond.ofBits_bits, Shift.ofBits_bits, ofBool_bit]

theorem eorImm (c s rn rd rot imm8) : Statement (.eorImm c s rn rd rot imm8) := by
  refine fun _ => ⟨3, _, rfl, ?_, ?_⟩
  · show (c.bits ++ 0b0010001#7 ++ BitVec.ofBool s ++ rn ++ rd ++ rot ++ imm8 &&&
      (0#4 ++ 127#7 ++ 0#1 ++ 0#4 ++ 0#4 ++ 0#4 ++ 0#8) == 0#4 ++ 0b0010001#7 ++ 0#1 ++ 0#4 ++ 0#4 ++ 0#4 ++ 0#8) = true
    simp only [BitVec.and_append, BitVec.and_zero, BitVec.reduceAnd, beq_self_eq_true]
  · simp only [condAt, shiftAt, HAppend.hAppend, append_extract_lo, append_extract_hi, append_bit_lo, append_bit_hi,
      BitVec.extractLsb'_eq_self, Nat.reduceAdd, Nat.reduceLeDiff, Nat.reduceSub, Nat.reduceLT,
      Cond.ofBits_bits, Shift.ofBits_bits, ofBool_bit]

theorem eorRsi (c s rn rd amt sh rm) : Statement (.eorRsi c s rn rd amt sh rm) := by
  refine fun _ => ⟨4, _, rfl, ?_, ?_⟩
  · show (c.bits ++ 0b0000001#7 ++ BitVec.ofBool s ++ rn ++ rd ++ amt ++ sh.bits ++ 0b0#1 ++ rm &&&
      (0#4 ++ 127#7 ++ 0#1 ++ 0#4 ++ 0#4 ++ 0#5 ++ 0#2 ++ 1#1 ++ 0#4) == 0#4 ++ 0b0000001#7 ++ 0#1 ++ 0#4 ++ 0#4 ++ 0#5 ++ 0#2 ++ 0b0#1 ++ 0#4) = true
    simp only [BitVec.and_append, BitVec.and_zero, BitVec.reduceAnd, beq_self_eq_true]
  · simp only [condAt, shiftAt, HAppend.hAppend, append_extract_lo, append_extract_hi, append_bit_lo, append_bit_hi,
      BitVec.extractLsb'_eq_self, Nat.reduceAdd, Nat.reduceLeDiff, Nat.reduceSub, Nat.reduceLT,
      Cond.ofBits_bits, Shift.ofBits_bits, ofBool_bit]

theorem eorRsr (c s rn rd rs sh rm) : Statement (.eorRsr c s rn rd rs sh rm) := by
  refine fun _ => ⟨5, _, rfl, ?_, ?_⟩
  · show (c.bits ++ 0b0000001#7 ++ BitVec.ofBool s ++ rn ++ rd ++ rs ++ 0b0#1 ++ sh.bits ++ 0b1#1 ++ rm &&&
      (0#4 ++ 127#7 ++ 0#1 ++ 0#4 ++ 0#4 ++ 0#4 ++ 1#1 ++ 0#2 ++ 1#1 ++ 0#4) == 0#4 ++ 0b0000001#7 ++ 0#1 ++ 0#4 ++ 0#4 ++ 0#4 ++ 0b0#1 ++ 0#2 ++ 0b1#1 ++ 0#4) = true
    simp only [BitVec.and_append, BitVec.and_zero, BitVec.reduceAnd, beq_self_eq_true]
  · simp only [condAt, shiftAt, HAppend.hAppend, append_extract_lo, append_extract_hi, append_bit_lo, append_bit_hi,
      BitVec.extractLsb'_eq_self, Nat.reduceAdd, Nat.reduceLeDiff, Nat.reduceSub, Nat.reduceLT,
      Cond.ofBits_bits, Shift.ofBits_bits, ofBool_bit]

theorem subImm (c s rn rd rot imm8) : Statement (.subImm c s rn rd rot imm8) := by
  refine fun _ => ⟨6, _, rfl, ?_, ?_⟩
  · show (c.bits ++ 0b0010010#7 ++ BitVec.ofBool s ++ rn ++ rd ++ rot ++ imm8 &&&
      (0#4 ++ 127#7 ++ 0#1 ++ 0#4 ++ 0#4 ++ 0#4 ++ 0#8) == 0#4 ++ 0b0010010#7 ++ 0#1 ++ 0#4 ++ 0#4 ++ 0#4 ++ 0#8) = true
    simp only [BitVec.and_append, BitVec.and_zero, BitVec.reduceAnd, beq_self_eq_true]
  · simp only [condAt, shiftAt, HAppend.hAppend, append_extract_lo, append_extract_hi, append_bit_lo, append_bit_hi,
      BitVec.extractLsb'_eq_self, Nat.reduceAdd, Nat.reduceLeDiff, Nat.reduceSub, Nat.reduceLT,
      Cond.ofBits_bits, Shift.ofBits_bits, ofBool_bit]

theorem subRsi (c s rn rd amt sh rm) : Statement (.subRsi c s rn rd amt sh rm) := by
  refine fun _ => ⟨7, _, rfl, ?_, ?_⟩
  · show (c.bits ++ 0b0000010#7 ++ BitVec.ofBool s ++ rn ++ rd ++ amt ++ sh.bits ++ 0b0#1 ++ rm &&&
      (0#4 ++ 127#7 ++ 0#1 ++ 0#4 ++ 0#4 ++ 0#5 ++ 0#2 ++ 1#1 ++ 0#4) == 0#4 ++ 0b0000010#7 ++ 0#1 ++ 0#4 ++ 0#4 ++ 0#5 ++ 0#2 ++ 0b0#1 ++ 0#4) = true
    simp only [BitVec.and_append, BitVec.and_zero, BitVec.reduceAnd, beq_self_eq_true]
  · simp only [condAt, shiftAt, HAppend.hAppend, append_extract_lo, append_extract_hi, append_bit_lo, append_bit_hi,
      BitVec.extractLsb'_eq_self, Nat.reduceAdd, Nat.reduceLeDiff, Nat.reduceSub, Nat.reduceLT,
      Cond.ofBits_bits, Shift.ofBits_bits, ofBool_bit]

theorem subRsr (c s rn rd rs sh rm) : Statement (.subRsr c s rn rd rs sh rm) := by
  refine fun _ => ⟨8, _, rfl, ?_, ?_⟩
  · show (c.bits ++ 0b0000010#7 ++ BitVec.ofBool s ++ rn ++ rd ++ rs ++ 0b0#1 ++ sh.bits ++ 0b1#1 ++ rm &&&
      (0#4 ++ 127#7 ++ 0#1 ++ 0#4 ++ 0#4 ++ 0#4 ++ 1#1 ++ 0#2 ++ 1#1 ++ 0#4) == 0#4 ++ 0b0000010#7 ++ 0#1 ++ 0#4 ++ 0#4 ++ 0#4 ++ 0b0#1 ++ 0#2 ++ 0b1#1 ++ 0#4) = true
    simp only [BitVec.and_append, BitVec.and_zero, BitVec.reduceAnd, beq_self_eq_true]
  · simp only [condAt, shiftAt, HAppend.hAppend, append_extract_lo, append_extract_hi, append_bit_lo, append_bit_hi,
      BitVec.extractLsb'_eq_self, Nat.reduceAdd, Nat.reduceLeDiff, Nat.reduceSub, Nat.reduceLT,
      Cond.ofBits_bits, Shift.ofBits_bits, ofBool_bit]

theorem rsbImm (c s rn rd rot imm8) : Statement (.rsbImm c s rn rd rot imm8) := by
  refine fun _ => ⟨9, _, rfl, ?_, ?_⟩
  · show (c.bits ++ 0b0010011#7 ++ BitVec.ofBool s ++ rn ++ rd ++ rot ++ imm8 &&&
      (0#4 ++ 127#7 ++ 0#1 ++ 0#4 ++ 0#4 ++ 0#4 ++ 0#8) == 0#4 ++ 0b0010011#7 ++ 0#1 ++ 0#4 ++ 0#4 ++ 0#4 ++ 0#8) = true
    simp only [BitVec.and_append, BitVec.and_zero, BitVec.reduceAnd, beq_self_eq_true]
  · simp only [condAt, shiftAt, HAppend.hAppend, append_extract_lo, append_extract_hi, append_bit_lo, append_bit_hi,
      BitVec.extractLsb'_eq_self, Nat.reduceAdd, Nat.reduceLeDiff, Nat.reduceSub, Nat.reduceLT,
      Cond.ofBits_bits, Shift.ofBits_bits, ofBool_bit]

theorem rsbRsi (c s rn rd amt sh rm) : Statement (.rsbRsi c s rn rd amt sh rm) := by
  refine fun _ => ⟨10, _, rfl, ?_, ?_⟩
  · show (c.bits ++ 0b0000011#7 ++ BitVec.ofBool s ++ rn ++ rd ++ amt ++ sh.bits ++ 0b0#1 ++ rm &&&
      (0#4 ++ 127#7 ++ 0#1 ++ 0#4 ++ 0#4 ++ 0#5 ++ 0#2 ++ 1#1 ++ 0#4) == 0#4 ++ 0b0000011#7 ++ 0#1 ++ 0#4 ++ 0#4 ++ 0#5 ++ 0#2 ++ 0b0#1 ++ 0#4) = true
    simp only [BitVec.and_append, BitVec.and_zero, BitVec.reduceAnd, beq_self_eq_true]
  · simp only [condAt, shiftAt, HAppend.hAppend, append_extract_lo, append_extract_hi, append_bit_lo, append_bit_hi,
      BitVec.extractLsb'_eq_self, Nat.reduceAdd, Nat.reduceLeDiff, Nat.reduceSub, Nat.reduceLT,
      Cond.ofBits_bits, Shift.ofBits_bits, ofBool_bit]

theorem rsbRsr (c s rn rd rs sh rm) : Statement (.rsbRsr c s rn rd rs sh rm) := by
  refine fun _ => ⟨11, _, rfl, ?_, ?_⟩
  · show (c.bits ++ 0b0000011#7 ++ BitVec.ofBool s ++ rn ++ rd ++ rs ++ 0b0#1 ++ sh.bits ++ 0b1#1 ++ rm &&&
      (0#4 ++ 127#7 ++ 0#1 ++ 0#4 ++ 0#4 ++ 0#4 ++ 1#1 ++ 0#2 ++ 1#1 ++ 0#4) == 0#4 ++ 0b0000011#7 ++ 0#1 ++ 0#4 ++ 0#4 ++ 0#4 ++ 0b0#1 ++ 0#2 ++ 0b1#1 ++ 0#4) = true
    simp only [BitVec.and_append, BitVec.and_zero, BitVec.reduceAnd, beq_self_eq_true]
  · simp only [condAt, shiftAt, HAppend.hAppend, append_extract_lo, append_extract_hi, append_bit_lo, append_bit_hi,
      BitVec.extractLsb'_eq_self, Nat.reduceAdd, Nat.reduceLeDiff, Nat.reduceSub, Nat.reduceLT,
      Cond.ofBits_bits, Shift.ofBits_bits, ofBool_bit]

theorem addImm (c s rn rd rot imm8) : Statement (.addImm c s rn rd rot imm8) := by
  refine fun _ => ⟨12, _, rfl, ?_, ?_⟩
  · show (c.bits ++ 0b0010100#7 ++ BitVec.ofBool s ++ rn ++ rd ++ rot ++ imm8 &&&
      (0#4 ++ 127#7 ++ 0#1 ++ 0#4 ++ 0#4 ++ 0#4 ++ 0#8) == 0#4 ++ 0b0010100#7 ++ 0#1 ++ 0#4 ++ 0#4 ++ 0#4 ++ 0#8) = true
    simp only [BitVec.and_append, BitVec.and_zero, BitVec.reduceAnd, beq_self_eq_true]
  · simp only [condAt, shiftAt, HAppend.hAppend, append_extract_lo, append_extract_hi, append_bit_lo, append_bit_hi,
      BitVec.extractLsb'_eq_self, Nat.reduceAdd, Nat.reduceLeDiff, Nat.reduceSub, Nat.reduceLT,
      Cond.ofBits_bits, Shift.ofBits_bits, ofBool_bit]

theorem addRsi (c s rn rd amt sh rm) : Statement (.addRsi c s rn rd amt sh rm) := by
  refine fun _ => ⟨13, _, rfl, ?_, ?_⟩
  · show (c.bits ++ 0b0000100#7 ++ BitVec.ofBool s ++ rn ++ rd ++ amt ++ sh.bits ++ 0b0#1 ++ rm &&&
      (0#4 ++ 127#7 ++ 0#1 ++ 0#4 ++ 0#4 ++ 0#5 ++ 0#2 ++ 1#1 ++ 0#4) == 0#4 ++ 0b0000100#7 ++ 0#1 ++ 0#4 ++ 0#4 ++ 0#5 ++ 0#2 ++ 0b0#1 ++ 0#4) = true
    simp only [BitVec.and_append, BitVec.and_zero, BitVec.reduceAnd, beq_self_eq_true]
  · simp only [condAt, shiftAt, HAppend.hAppend, append_extract_lo, append_extract_hi, append_bit_lo, append_bit_hi,
      BitVec.extractLsb'_eq_self, Nat.reduceAdd, Nat.reduceLeDiff, Nat.reduceSub, Nat.reduceLT,
      Cond.ofBits_bits, Shift.ofBits_bits, ofBool_bit]

theorem addRsr (c s rn rd rs sh rm) : Statement (.addRsr c s rn rd rs sh rm) := by
  refine fun _ => ⟨14, _, rfl, ?_, ?_⟩
  · show (c.bits ++ 0b0000100#7 ++ BitVec.ofBool s ++ rn ++ rd ++ rs ++ 0b0#1 ++ sh.bits ++ 0b1#1 ++ rm &&&
      (0#4 ++ 127#7 ++ 0#1 ++ 0#4 ++ 0#4 ++ 0#4 ++ 1#1 ++ 0#2 ++ 1#1 ++ 0#4) == 0#4 ++ 0b0000100#7 ++ 0#1 ++ 0#4 ++ 0#4 ++ 0#4 ++ 0b0#1 ++ 0#2 ++ 0b1#1 ++ 0#4) = true
    simp only [BitVec.and_append, BitVec.and_zero, BitVec.reduceAnd, beq_self_eq_true]
  · simp only [condAt, shiftAt, HAppend.hAppend, append_extract_lo, append_extract_hi, append_bit_lo, append_bit_hi,
      BitVec.extractLsb'_eq_self, Nat.reduceAdd, Nat.reduceLeDiff, Nat.reduceSub, Nat.reduceLT,
      Cond.ofBits_bits, Shift.ofBits_bits, ofBool_bit]

theorem adcImm (c s rn rd rot imm8) : Statement (.adcImm c s rn rd rot imm8) := by
  refine fun _ => ⟨15, _, rfl, ?_, ?_⟩
  · show (c.bits ++ 0b0010101#7 ++ BitVec.ofBool s ++ rn ++ rd ++ rot ++ imm8 &&&
      (0#4 ++ 127#7 ++ 0#1 ++ 0#4 ++ 0#4 ++ 0#4 ++ 0#8) == 0#4 ++ 0b0010101#7 ++ 0#1 ++ 0#4 ++ 0#4 ++ 0#4 ++ 0#8) = true
    simp only [BitVec.and_append, BitVec.and_zero, BitVec.reduceAnd, beq_self_eq_true]
  · simp only [condAt, shiftAt, HAppend.hAppend, append_extract_lo, append_extract_hi, append_bit_lo, append_bit_hi,
      BitVec.extractLsb'_eq_self, Nat.reduceAdd, Nat.reduceLeDiff, Nat.reduceSub, Nat.reduceLT,
      Cond.ofBits_bits, Shift.ofBits_bits, ofBool_bit]

theorem adcRsi (c s rn rd amt sh rm) : Statement (.adcRsi c s rn rd amt sh rm) := by
  refine fun _ => ⟨16, _, rfl, ?_, ?_⟩
  · show (c.bits ++ 0b0000101#7 ++ BitVec.ofBool s ++ rn ++ rd ++ amt ++ sh.bits ++ 0b0#1 ++ rm &&&
      (0#4 ++ 127#7 ++ 0#1 ++ 0#4 ++ 0#4 ++ 0#5 ++ 0#2 ++ 1#1 ++ 0#4) == 0#4 ++ 0b0000101#7 ++ 0#1 ++ 0#4 ++ 0#4 ++ 0#5 ++ 0#2 ++ 0b0#1 ++ 0#4) = true
    simp only [BitVec.and_append, BitVec.and_zero, BitVec.reduceAnd, beq_self_eq_true]
  · simp only [condAt, shiftAt, HAppend.hAppend, append_extract_lo, append_extract_hi, append_bit_lo, append_bit_hi,
      BitVec.extractLsb'_eq_self, Nat.reduceAdd, Nat.reduceLeDiff, Nat.reduceSub, Nat.reduceLT,
      Cond.ofBits_bits, Shift.ofBits_bits, ofBool_bit]

theorem adcRsr (c s rn rd rs sh rm) : Statement (.adcRsr c s rn rd rs sh rm) := by
  refine fun _ => ⟨17, _, rfl, ?_, ?_⟩
  · show (c.bits ++ 0b0000101#7 ++ BitVec.ofBool s ++ rn ++ rd ++ rs ++ 0b0#1 ++ sh.bits ++ 0b1#1 ++ rm &&&
      (0#4 ++ 127#7 ++ 0#1 ++ 0#4 ++ 0#4 ++ 0#4 ++ 1#1 ++ 0#2 ++ 1#1 ++ 0#4) == 0#4 ++ 0b0000101#7 ++ 0#1 ++ 0#4 ++ 0#4 ++ 0#4 ++ 0b0#1 ++ 0#2 ++ 0b1#1 ++ 0#4) = true
    simp only [BitVec.and_append, BitVec.and_zero, BitVec.reduceAnd, beq_self_eq_true]
  · simp only [condAt, shiftAt, HAppend.hAppend, append_extract_lo, append_extract_hi, append_bit_lo, append_bit_hi,
      BitVec.extractLsb'_eq_self, Nat.reduceAdd, Nat.reduceLeDiff, Nat.reduceSub, Nat.reduceLT,
      Cond.ofBits_bits, Shift.ofBits_bits, ofBool_bit]

theorem sbcImm (c s rn rd rot imm8) : Statement (.sbcImm c s rn rd rot imm8) := by
  refine fun _ => ⟨18, _, rfl, ?_, ?_⟩
  · show (c.bits ++ 0b0010110#7 ++ BitVec.ofBool s ++ rn ++ rd ++ rot ++ imm8 &&&
      (0#4 ++ 127#7 ++ 0#1 ++ 0#4 ++ 0#4 ++ 0#4 ++ 0#8) == 0#4 ++ 0b0010110#7 ++ 0#1 ++ 0#4 ++ 0#4 ++ 0#4 ++ 0#8) = true
    simp only [BitVec.and_append, BitVec.and_zero, BitVec.reduceAnd, beq_self_eq_true]
  · simp only [condAt, shiftAt, HAppend.hAppend, append_extract_lo, append_extract_hi, append_bit_lo, append_bit_hi,
      BitVec.extractLsb'_eq_self, Nat.reduceAdd, Nat.reduceLeDiff, Nat.reduceSub, Nat.reduceLT,
      Cond.ofBits_bits, Shift.ofBits_bits, ofBool_bit]

theorem sbcRsi (c s rn rd amt sh rm) : Statement (.sbcRsi c s rn rd amt sh rm) := by
  refine fun _ => ⟨19, _, rfl, ?_, ?_⟩
  · show (c.bits ++ 0b0000110#7 ++ BitVec.ofBool s ++ rn ++ rd ++ amt ++ sh.bits ++ 0b0#1 ++ rm &&&
      (0#4 ++ 127#7 ++ 0#1 ++ 0#4 ++ 0#4 ++ 0#5 ++ 0#2 ++ 1#1 ++ 0#4) == 0#4 ++ 0b0000110#7 ++ 0#1 ++ 0#4 ++ 0#4 ++ 0#5 ++ 0#2 ++ 0b0#1 ++ 0#4) = true
    simp only [BitVec.and_append, BitVec.and_zero, BitVec.reduceAnd, beq_self_eq_true]
  · simp only [condAt, shiftAt, HAppend.hAppend, append_extract_lo, append_extract_hi, append_bit_lo, append_bit_hi,
      BitVec.extractLsb'_eq_self, Nat.reduceAdd, Nat.reduceLeDiff, Nat.reduceSub, Nat.reduceLT,
      Cond.ofBits_bits, Shift.ofBits_bits, ofBool_bit]

theorem sbcRsr (c s rn rd rs sh rm) : Statement (.sbcRsr c s rn rd rs sh rm) := by
  refine fun _ => ⟨20, _, rfl, ?_, ?_⟩
  · show (c.bits ++ 0b0000110#7 ++ BitVec.ofBool s ++ rn ++ rd ++ rs ++ 0b0#1 ++ sh.bits ++ 0b1#1 ++ rm &&&
      (0#4 ++ 127#7 ++ 0#1 ++ 0#4 ++ 0#4 ++ 0#4 ++ 1#1 ++ 0#2 ++ 1#1 ++ 0#4) == 0#4 ++ 0b0000110#7 ++ 0#1 ++ 0#4 ++ 0#4 ++ 0#4 ++ 0b0#1 ++ 0#2 ++ 0b1#1 ++ 0#4) = true
    simp only [BitVec.and_append, BitVec.and_zero, BitVec.reduceAnd, beq_self_eq_true]
  · simp only [condAt, shiftAt, HAppend.hAppend, append_extract_lo, append_extract_hi, append_bit_lo, append_bit_hi,
      BitVec.extractLsb'_eq_self, Nat.reduceAdd, Nat.reduceLeDiff, Nat.reduceSub, Nat.reduceLT,
      Cond.ofBits_bits, Shift.ofBits_bits, ofBool_bit]

theorem rscImm (c s rn rd rot imm8) : Statement (.rscImm c s rn rd rot imm8) := by
  refine fun _ => ⟨21, _, rfl, ?_, ?_⟩
  · show (c.bits ++ 0b0010111#7 ++ BitVec.ofBool s ++ rn ++ rd ++ rot ++ imm8 &&&
      (0#4 ++ 127#7 ++ 0#1 ++ 0#4 ++ 0#4 ++ 0#4 ++ 0#8) == 0#4 ++ 0b0010111#7 ++ 0#1 ++ 0#4 ++ 0#4 ++ 0#4 ++ 0#8) = true
    simp only [BitVec.and_append, BitVec.and_zero, BitVec.reduceAnd, beq_self_eq_true]
  · simp only [condAt, shiftAt, HAppend.hAppend, append_extract_lo, append_extract_hi, append_bit_lo, append_bit_hi,
      BitVec.extractLsb'_eq_self, Nat.reduceAdd, Nat.reduceLeDiff, Nat.reduceSub, Nat.reduceLT,
      Cond.ofBits_bits, Shift.ofBits_bits, ofBool_bit]

theorem rscRsi (c s rn rd amt sh rm) : Statement (.rscRsi c s rn rd amt sh rm) := by
  refine fun _ => ⟨22, _, rfl, ?_, ?_⟩
  · show (c.bits ++ 0b0000111#7 ++ BitVec.ofBool s ++ rn ++ rd ++ amt ++ sh.bits ++ 0b0#1 ++ rm &&&
      (0#4 ++ 127#7 ++ 0#1 ++ 0#4 ++ 0#4 ++ 0#5 ++ 0#2 ++ 1#1 ++ 0#4) == 0#4 ++ 0b0000111#7 ++ 0#1 ++ 0#4 ++ 0#4 ++ 0#5 ++ 0#2 ++ 0b0#1 ++ 0#4) = true
    simp only [BitVec.and_append, BitVec.and_zero, BitVec.reduceAnd, beq_self_eq_true]
  · simp only [condAt, shiftAt, HAppend.hAppend, append_extract_lo, append_extract_hi, append_bit_lo, append_bit_hi,
      BitVec.extractLsb'_eq_self, Nat.reduceAdd, Nat.reduceLeDiff, Nat.reduceSub, Nat.reduceLT,
      Cond.ofBits_bits, Shift.ofBits_bits, ofBool_bit]

theorem rscRsr (c s rn rd rs sh rm) : Statement (.rscRsr c s rn rd rs sh rm) := by
  refine fun _ => ⟨23, _, rfl, ?_, ?_⟩
  · show (c.bits ++ 0b0000111#7 ++ BitVec.ofBool s ++ rn ++ rd ++ rs ++ 0b0#1 ++ sh.bits ++ 0b1#1 ++ rm &&&
      (0#4 ++ 127#7 ++ 0#1 ++ 0#4 ++ 0#4 ++ 0#4 ++ 1#1 ++ 0#2 ++ 1#1 ++ 0#4) == 0#4 ++ 0b0000111#7 ++ 0#1 ++ 0#4 ++ 0#4 ++ 0#4 ++ 0b0#1 ++ 0#2 ++ 0b1#1 ++ 0#4) = true
    simp only [BitVec.and_append, BitVec.and_zero, BitVec.reduceAnd, beq_self_eq_true]
  · simp only [condAt, shiftAt, HAppend.hAppend, append_extract_lo, append_extract_hi, append_bit_lo, append_bit_hi,
      BitVec.extractLsb'_eq_self, Nat.reduceAdd, Nat.reduceLeDiff, Nat.reduceSub, Nat.reduceLT,
      Cond.ofBits_bits, Shift.ofBits_bits, ofBool_bit]

theorem tstImm (c rn sbz rot imm8) : Statement (.tstImm c rn sbz rot imm8) := by
  refine fun _ => ⟨24, _, rfl, ?_, ?_⟩
  · show (c.bits ++ 0b00110001#8 ++ rn ++ sbz ++ rot ++ imm8 &&&
      (0#4 ++ 255#8 ++ 0#4 ++ 0#4 ++ 0#4 ++ 0#8) == 0#4 ++ 0b00110001#8 ++ 0#4 ++ 0#4 ++ 0#4 ++ 0#8) = true
    simp only [BitVec.and_append, BitVec.and_zero, BitVec.reduceAnd, beq_self_eq_true]
  · simp only [condAt, shiftAt, HAppend.hAppend, append_extract_lo, append_extract_hi, append_bit_lo, append_bit_hi,
      BitVec.extractLsb'_eq_self, Nat.reduceAdd, Nat.reduceLeDiff, Nat.reduceSub, Nat.reduceLT,
      Cond.ofBits_bits, Shift.ofBits_bits, ofBool_bit]

theorem tstRsi (c rn sbz amt sh rm) : Statement (.tstRsi c rn sbz amt sh rm) := by
  refine fun _ => ⟨25, _, rfl, ?_, ?_⟩
  · show (c.bits ++ 0b00010001#8 ++ rn ++ sbz ++ amt ++ sh.bits ++ 0b0#1 ++ rm &&&
      (0#4 ++ 255#8 ++ 0#4 ++ 0#4 ++ 0#5 ++ 0#2 ++ 1#1 ++ 0#4) == 0#4 ++ 0b00010001#8 ++ 0#4 ++ 0#4 ++ 0#5 ++ 0#2 ++ 0b0#1 ++ 0#4) = true
    simp only [BitVec.and_append, BitVec.and_zero, BitVec.reduceAnd, beq_self_eq_true]
  · simp only [condAt, shiftAt, HAppend.hAppend, append_extract_lo, append_extract_hi, append_bit_lo, append_bit_hi,
      BitVec.extractLsb'_eq_self, Nat.reduceAdd, Nat.reduceLeDiff, Nat.reduceSub, Nat.reduceLT,
      Cond.ofBits_bits, Shift.ofBits_bits, ofBool_bit]

theorem tstRsr (c rn sbz rs sh rm) : Statement (.tstRsr c rn sbz rs sh rm) := by
  refine fun _ => ⟨26, _, rfl, ?_, ?_⟩
  · show (c.bits ++ 0b00010001#8 ++ rn ++ sbz ++ rs ++ 0b0#1 ++ sh.bits ++ 0b1#1 ++ rm &&&
      (0#4 ++ 255#8 ++ 0#4 ++ 0#4 ++ 0#4 ++ 1#1 ++ 0#2 ++ 1#1 ++ 0#4) == 0#4 ++ 0b00010001#8 ++ 0#4 ++ 0#4 ++ 0#4 ++ 0b0#1 ++ 0#2 ++ 0b1#1 ++ 0#4) = true
    simp only [BitVec.and_append, BitVec.and_zero, BitVec.reduceAnd, beq_self_eq_true]
  · simp only [condAt, shiftAt, HAppend.hAppend, append_extract_lo, append_extract_hi, append_bit_lo, append_bit_hi,
      BitVec.extractLsb'_eq_self, Nat.reduceAdd, Nat.reduceLeDiff, Nat.reduceSub, Nat.reduceLT,
      Cond.ofBits_bits, Shift.ofBits_bits, ofBool_bit]

theorem teqImm (c rn sbz rot imm8) : Statement (.teqImm c rn sbz rot imm8) := by
  refine fun _ => ⟨27, _, rfl, ?_, ?_⟩
  · show (c.bits ++ 0b00110011#8 ++ rn ++ sbz ++ rot ++ imm8 &&&
      (0#4 ++ 255#8 ++ 0#4 ++ 0#4 ++ 0#4 ++ 0#8) == 0#4 ++ 0b00110011#8 ++ 0#4 ++ 0#4 ++ 0#4 ++ 0#8) = true
    simp only [BitVec.and_append, BitVec.and_zero, BitVec.reduceAnd, beq_self_eq_true]
  · simp only [condAt, shiftAt, HAppend.hAppend, append_extract_lo, append_extract_hi, append_bit_lo, append_bit_hi,
      BitVec.extractLsb'_eq_self, Nat.reduceAdd, Nat.reduceLeDiff, Nat.reduceSub, Nat.reduceLT,
      Cond.ofBits_bits, Shift.ofBits_bits, ofBool_bit]

theorem teqRsi (c rn sbz amt sh rm) : Statement (.teqRsi c rn sbz amt sh rm) := by
  refine fun _ => ⟨28, _, rfl, ?_, ?_⟩
  · show (c.bits ++ 0b00010011#8 ++ rn ++ sbz ++ amt ++ sh.bits ++ 0b0#1 ++ rm &&&
      (0#4 ++ 255#8 ++ 0#4 ++ 0#4 ++ 0#5 ++ 0#2 ++ 1#1 ++ 0#4) == 0#4 ++ 0b00010011#8 ++ 0#4 ++ 0#4 ++ 0#5 ++ 0#2 ++ 0b0#1 ++ 0#4) = true
    simp only [BitVec.and_append, BitVec.and_zero, BitVec.reduceAnd, beq_self_eq_true]
  · simp only [condAt, shiftAt, HAppend.hAppend, append_extract_lo, append_extract_hi, append_bit_lo, append_bit_hi,
      BitVec.extractLsb'_eq_self, Nat.reduceAdd, Nat.reduceLeDiff, Nat.reduceSub, Nat.reduceLT,
      Cond.ofBits_bits, Shift.ofBits_bits, ofBool_bit]

theorem teqRsr (c rn sbz rs sh rm) : Statement (.teqRsr c rn sbz rs sh rm) := by
  refine fun _ => ⟨29, _, rfl, ?_, ?_⟩
  · show (c.bits ++ 0b00010011#8 ++ rn ++ sbz ++ rs ++ 0b0#1 ++ sh.bits ++ 0b1#1 ++ rm &&&
      (0#4 ++ 255#8 ++ 0#4 ++ 0#4 ++ 0#4 ++ 1#1 ++ 0#2 ++ 1#1 ++ 0#4) == 0#4 ++ 0b00010011#8 ++ 0#4 ++ 0#4 ++ 0#4 ++ 0b0#1 ++ 0#2 ++ 0b1#1 ++ 0#4) = true
    simp only [BitVec.and_append, BitVec.and_zero, BitVec.reduceAnd, beq_self_eq_true]
  · simp only [condAt, shiftAt, HAppend.hAppend, append_extract_lo, append_extract_hi, append_bit_lo, append_bit_hi,
      BitVec.extractLsb'_eq_self, Nat.reduceAdd, Nat.reduceLeDiff, Nat.reduceSub, Nat.reduceLT,
      Cond.ofBits_bits, Shift.ofBits_bits, ofBool_bit]

theorem cmpImm (c rn sbz rot imm8) : Statement (.cmpImm c rn sbz rot imm8) := by
  refine fun _ => ⟨30, _, rfl, ?_, ?_⟩
  · show (c.bits ++ 0b00110101#8 ++ rn ++ sbz ++ rot ++ imm8 &&&
      (0#4 ++ 255#8 ++ 0#4 ++ 0#4 ++ 0#4 ++ 0#8) == 0#4 ++ 0b00110101#8 ++ 0#4 ++ 0#4 ++ 0#4 ++ 0#8) = true
    simp only [BitVec.and_append, BitVec.and_zero, BitVec.reduceAnd, beq_self_eq_true]
  · simp only [condAt, shiftAt, HAppend.hAppend, append_extract_lo, append_extract_hi, append_bit_lo, append_bit_hi,
      BitVec.extractLsb'_eq_self, Nat.reduceAdd, Nat.reduceLeDiff, Nat.reduceSub, Nat.reduceLT,
      Cond.ofBits_bits, Shift.ofBits_bits, ofBool_bit]

theorem cmpRsi (c rn sbz amt sh rm) : Statement (.cmpRsi c rn sbz amt sh rm) := by
  refine fun _ => ⟨31, _, rfl, ?_, ?_⟩
  · show (c.bits ++ 0b00010101#8 ++ rn ++ sbz ++ amt ++ sh.bits ++ 0b0#1 ++ rm &&&
      (0#4 ++ 255#8 ++ 0#4 ++ 0#4 ++ 0#5 ++ 0#2 ++ 1#1 ++ 0#4) == 0#4 ++ 0b00010101#8 ++ 0#4 ++ 0#4 ++ 0#5 ++ 0#2 ++ 0b0#1 ++ 0#4) = true
    simp only [BitVec.and_append, BitVec.and_zero, BitVec.reduceAnd, beq_self_eq_true]
  · simp only [condAt, shiftAt, HAppend.hAppend, append_extract_lo, append_extract_hi, append_bit_lo, append_bit_hi,
      BitVec.extractLsb'_eq_self, Nat.reduceAdd, Nat.reduceLeDiff, Nat.reduceSub, Nat.reduceLT,
      Cond.ofBits_bits, Shift.ofBits_bits, ofBool_bit]

theorem cmpRsr (c rn sbz rs sh rm) : Statement (.cmpRsr c rn sbz rs sh rm) := by
  refine fun _ => ⟨32, _, rfl, ?_, ?_⟩
  · show (c.bits ++ 0b00010101#8 ++ rn ++ sbz ++ rs ++ 0b0#1 ++ sh.bits ++ 0b1#1 ++ rm &&&
      (0#4 ++ 255#8 ++ 0#4 ++ 0#4 ++ 0#4 ++ 1#1 ++ 0#2 ++ 1#1 ++ 0#4) == 0#4 ++ 0b00010101#8 ++ 0#4 ++ 0#4 ++ 0#4 ++ 0b0#1 ++ 0#2 ++ 0b1#1 ++ 0#4) = true
    simp only [BitVec.and_append, BitVec.and_zero, BitVec.reduceAnd, beq_self_eq_true]
  · simp only [condAt, shiftAt, HAppend.hAppend, append_extract_lo, append_extract_hi, append_bit_lo, append_bit_hi,
      BitVec.extractLsb'_eq_self, Nat.reduceAdd, Nat.reduceLeDiff, Nat.reduceSub, Nat.reduceLT,
      Cond.ofBits_bits, Shift.ofBits_bits, ofBool_bit]

theorem cmnImm (c rn sbz rot imm8) : Statement (.cmnImm c rn sbz rot imm8) := by
  refine fun _ => ⟨33, _, rfl, ?_, ?_⟩
  · show (c.bits ++ 0b00110111#8 ++ rn ++ sbz ++ rot ++ imm8 &&&
      (0#4 ++ 255#8 ++ 0#4 ++ 0#4 ++ 0#4 ++ 0#8) == 0#4 ++ 0b00110111#8 ++ 0#4 ++ 0#4 ++ 0#4 ++ 0#8) = true
    simp only [BitVec.and_append, BitVec.and_zero, BitVec.reduceAnd, beq_self_eq_true]
  · simp only [condAt, shiftAt, HAppend.hAppend, append_extract_lo, append_extract_hi, append_bit_lo, append_bit_hi,
      BitVec.extractLsb'_eq_self, Nat.reduceAdd, Nat.reduceLeDiff, Nat.reduceSub, Nat.reduceLT,
      Cond.ofBits_bits, Shift.ofBits_bits, ofBool_bit]

theorem cmnRsi (c rn sbz amt sh rm) : Statement (.cmnRsi c rn sbz amt sh rm) := by
  refine fun _ => ⟨34, _, rfl, ?_, ?_⟩
  · show (c.bits ++ 0b00010111#8 ++ rn ++ sbz ++ amt ++ sh.bits ++ 0b0#1 ++ rm &&&
      (0#4 ++ 255#8 ++ 0#4 ++ 0#4 ++ 0#5 ++ 0#2 ++ 1#1 ++ 0#4) == 0#4 ++ 0b00010111#8 ++ 0#4 ++ 0#4 ++ 0#5 ++ 0#2 ++ 0b0#1 ++ 0#4) = true
    simp only [BitVec.and_append, BitVec.and_zero, BitVec.reduceAnd, beq_self_eq_true]
  · simp only [condAt, shiftAt, HAppend.hAppend, append_extract_lo, append_extract_hi, append_bit_lo, append_bit_hi,
      BitVec.extractLsb'_eq_self, Nat.reduceAdd, Nat.reduceLeDiff, Nat.reduceSub, Nat.reduceLT,
      Cond.ofBits_bits, Shift.ofBits_bits, ofBool_bit]

theorem cmnRsr (c rn sbz rs sh rm) : Statement (.cmnRsr c rn sbz rs sh rm) := by
  refine fun _ => ⟨35, _, rfl, ?_, ?_⟩
  · show (c.bits ++ 0b00010111#8 ++ rn ++ sbz ++ rs ++ 0b0#1 ++ sh.bits ++ 0b1#1 ++ rm &&&
      (0#4 ++ 255#8 ++ 0#4 ++ 0#4 ++ 0#4 ++ 1#1 ++ 0#2 ++ 1#1 ++ 0#4) == 0#4 ++ 0b00010111#8 ++ 0#4 ++ 0#4 ++ 0#4 ++ 0b0#1 ++ 0#2 ++ 0b1#1 ++ 0#4) = true
    simp only [BitVec.and_append, BitVec.and_zero, BitVec.reduceAnd, beq_self_eq_true]
  · simp only [condAt, shiftAt, HAppend.hAppend, append_extract_lo, append_extract_hi, append_bit_lo, append_bit_hi,
      BitVec.extractLsb'_eq_self, Nat.reduceAdd, Nat.reduceLeDiff, Nat.reduceSub, Nat.reduceLT,
      Cond.ofBits_bits, Shift.ofBits_bits, ofBool_bit]

theorem orrImm (c s rn rd rot imm8) : Statement (.orrImm c s rn rd rot imm8) := by
  refine fun _ => ⟨36, _, rfl, ?_, ?_⟩
  · show (c.bits ++ 0b0011100#7 ++ BitVec.ofBool s ++ rn ++ rd ++ rot ++ imm8 &&&
      (0#4 ++ 127#7 ++ 0#1 ++ 0#4 ++ 0#4 ++ 0#4 ++ 0#8) == 0#4 ++ 0b0011100#7 ++ 0#1 ++ 0#4 ++ 0#4 ++ 0#4 ++ 0#8) = true
    simp only [BitVec.and_append, BitVec.and_zero, BitVec.reduceAnd, beq_self_eq_true]
  · simp only [condAt, shiftAt, HAppend.hAppend, append_extract_lo, append_extract_hi, append_bit_lo, append_bit_hi,
      BitVec.extractLsb'_eq_self, Nat.reduceAdd, Nat.reduceLeDiff, Nat.reduceSub, Nat.reduceLT,
      Cond.ofBits_bits, Shift.ofBits_bits, ofBool_bit]

theorem orrRsi (c s rn rd amt sh rm) : Statement (.orrRsi c s rn rd amt sh rm) := by
  refine fun _ => ⟨37, _, rfl, ?_, ?_⟩
  · show (c.bits ++ 0b0001100#7 ++ BitVec.ofBool s ++ rn ++ rd ++ amt ++ sh.bits ++ 0b0#1 ++ rm &&&
      (0#4 ++ 127#7 ++ 0#1 ++ 0#4 ++ 0#4 ++ 0#5 ++ 0#2 ++ 1#1 ++ 0#4) == 0#4 ++ 0b0001100#7 ++ 0#1 ++ 0#4 ++ 0#4 ++ 0#5 ++ 0#2 ++ 0b0#1 ++ 0#4) = true
    simp only [BitVec.and_append, BitVec.and_zero, BitVec.reduceAnd, beq_self_eq_true]
  · simp only [condAt, shiftAt, HAppend.hAppend, append_extract_lo, append_extract_hi, append_bit_lo, append_bit_hi,
      BitVec.extractLsb'_eq_self, Nat.reduceAdd, Nat.reduceLeDiff, Nat.reduceSub, Nat.reduceLT,
      Cond.ofBits_bits, Shift.ofBits_bits, ofBool_bit]

theorem orrRsr (c s rn rd rs sh rm) : Statement (.orrRsr c s rn rd rs sh rm) := by
  refine fun _ => ⟨38, _, rfl, ?_, ?_⟩
  · show (c.bits ++ 0b0001100#7 ++ BitVec.ofBool s ++ rn ++ rd ++ rs ++ 0b0#1 ++ sh.bits ++ 0b1#1 ++ rm &&&
      (0#4 ++ 127#7 ++ 0#1 ++ 0#4 ++ 0#4 ++ 0#4 ++ 1#1 ++ 0#2 ++ 1#1 ++ 0#4) == 0#4 ++ 0b0001100#7 ++ 0#1 ++ 0#4 ++ 0#4 ++ 0#4 ++ 0b0#1 ++ 0#2 ++ 0b1#1 ++ 0#4) = true
    simp only [BitVec.and_append, BitVec.and_zero, BitVec.reduceAnd, beq_self_eq_true]
  · simp only [condAt, shiftAt, HAppend.hAppend, append_extract_lo, append_extract_hi, append_bit_lo, append_bit_hi,
      BitVec.extractLsb'_eq_self, Nat.reduceAdd, Nat.reduceLeDiff, Nat.reduceSub, Nat.reduceLT,
      Cond.ofBits_bits, Shift.ofBits_bits, ofBool_bit]

theorem movImm (c s sbz rd rot imm8) : Statement (.movImm c s sbz rd rot imm8) := by
  refine fun _ => ⟨39, _, rfl, ?_, ?_⟩
  · show (c.bits ++ 0b0011101#7 ++ BitVec.ofBool s ++ sbz ++ rd ++ rot ++ imm8 &&&
      (0#4 ++ 127#7 ++ 0#1 ++ 0#4 ++ 0#4 ++ 0#4 ++ 0#8) == 0#4 ++ 0b0011101#7 ++ 0#1 ++ 0#4 ++ 0#4 ++ 0#4 ++ 0#8) = true
    simp only [BitVec.and_append, BitVec.and_zero, BitVec.reduceAnd, beq_self_eq_true]
  · simp only [condAt, shiftAt, HAppend.hAppend, append_extract_lo, append_extract_hi, append_bit_lo, append_bit_hi,
      BitVec.extractLsb'_eq_self, Nat.reduceAdd, Nat.reduceLeDiff, Nat.reduceSub, Nat.reduceLT,
      Cond.ofBits_bits, Shift.ofBits_bits, ofBool_bit]

theorem movRsi (c s sbz rd amt sh rm) : Statement (.movRsi c s sbz rd amt sh rm) := by
  refine fun _ => ⟨40, _, rfl, ?_, ?_⟩
  · show (c.bits ++ 0b0001101#7 ++ BitVec.ofBool s ++ sbz ++ rd ++ amt ++ sh.bits ++ 0b0#1 ++ rm &&&
      (0#4 ++ 127#7 ++ 0#1 ++ 0#4 ++ 0#4 ++ 0#5 ++ 0#2 ++ 1#1 ++ 0#4) == 0#4 ++ 0b0001101#7 ++ 0#1 ++ 0#4 ++ 0#4 ++ 0#5 ++ 0#2 ++ 0b0#1 ++ 0#4) = true
    simp only [BitVec.and_append, BitVec.and_zero, BitVec.reduceAnd, beq_self_eq_true]
  · simp only [condAt, shiftAt, HAppend.hAppend, append_extract_lo, append_extract_hi, append_bit_lo, append_bit_hi,
      BitVec.extractLsb'_eq_self, Nat.reduceAdd, Nat.reduceLeDiff, Nat.reduceSub, Nat.reduceLT,
      Cond.ofBits_bits, Shift.ofBits_bits, ofBool_bit]

theorem movRsr (c s sbz rd rs sh rm) : Statement (.movRsr c s sbz rd rs sh rm) := by
  refine fun _ => ⟨41, _, rfl, ?_, ?_⟩
  · show (c.bits ++ 0b0001101#7 ++ BitVec.ofBool s ++ sbz ++ rd ++ rs ++ 0b0#1 ++ sh.bits ++ 0b1#1 ++ rm &&&
      (0#4 ++ 127#7 ++ 0#1 ++ 0#4 ++ 0#4 ++ 0#4 ++ 1#1 ++ 0#2 ++ 1#1 ++ 0#4) == 0#4 ++ 0b0001101#7 ++ 0#1 ++ 0#4 ++ 0#4 ++ 0#4 ++ 0b0#1 ++ 0#2 ++ 0b1#1 ++ 0#4) = true
    simp only [BitVec.and_append, BitVec.and_zero, BitVec.reduceAnd, beq_self_eq_true]
  · simp only [condAt, shiftAt, HAppend.hAppend, append_extract_lo, append_extract_hi, append_bit_lo, append_bit_hi,
      BitVec.extractLsb'_eq_self, Nat.reduceAdd, Nat.reduceLeDiff, Nat.reduceSub, Nat.reduceLT,
      Cond.ofBits_bits, Shift.ofBits_bits, ofBool_bit]

theorem bicImm (c s rn rd rot imm8) : Statement (.bicImm c s rn rd rot imm8) := by
  refine fun _ => ⟨42, _, rfl, ?_, ?_⟩
  · show (c.bits ++ 0b0011110#7 ++ BitVec.ofBool s ++ rn ++ rd ++ rot ++ imm8 &&&
      (0#4 ++ 127#7 ++ 0#1 ++ 0#4 ++ 0#4 ++ 0#4 ++ 0#8) == 0#4 ++ 0b0011110#7 ++ 0#1 ++ 0#4 ++ 0#4 ++ 0#4 ++ 0#8) = true
    simp only [BitVec.and_append, BitVec.and_zero, BitVec.reduceAnd, beq_self_eq_true]
  · simp only [condAt, shiftAt, HAppend.hAppend, append_extract_lo, append_extract_hi, append_bit_lo, append_bit_hi,
      BitVec.extractLsb'_eq_self, Nat.reduceAdd, Nat.reduceLeDiff, Nat.reduceSub, Nat.reduceLT,
      Cond.ofBits_bits, Shift.ofBits_bits, ofBool_bit]

theorem bicRsi (c s rn rd amt sh rm) : Statement (.bicRsi c s rn rd amt sh rm) := by
  refine fun _ => ⟨43, _, rfl, ?_, ?_⟩
  · show (c.bits ++ 0b0001110#7 ++ BitVec.ofBool s ++ rn ++ rd ++ amt ++ sh.bits ++ 0b0#1 ++ rm &&&
      (0#4 ++ 127#7 ++ 0#1 ++ 0#4 ++ 0#4 ++ 0#5 ++ 0#2 ++ 1#1 ++ 0#4) == 0#4 ++ 0b0001110#7 ++ 0#1 ++ 0#4 ++ 0#4 ++ 0#5 ++ 0#2 ++ 0b0#1 ++ 0#4) = true
    simp only [BitVec.and_append, BitVec.and_zero, BitVec.reduceAnd, beq_self_eq_true]
  · simp only [condAt, shiftAt, HAppend.hAppend, append_extract_lo, append_extract_hi, append_bit_lo, append_bit_hi,
      BitVec.extractLsb'_eq_self, Nat.reduceAdd, Nat.reduceLeDiff, Nat.reduceSub, Nat.reduceLT,
      Cond.ofBits_bits, Shift.ofBits_bits, ofBool_bit]

theorem bicRsr (c s rn rd rs sh rm) : Statement (.bicRsr c s rn rd rs sh rm) := by
  refine fun _ => ⟨44, _, rfl, ?_, ?_⟩
  · show (c.bits ++ 0b0001110#7 ++ BitVec.ofBool s ++ rn ++ rd ++ rs ++ 0b0#1 ++ sh.bits ++ 0b1#1 ++ rm &&&
      (0#4 ++ 127#7 ++ 0#1 ++ 0#4 ++ 0#4 ++ 0#4 ++ 1#1 ++ 0#2 ++ 1#1 ++ 0#4) == 0#4 ++ 0b0001110#7 ++ 0#1 ++ 0#4 ++ 0#4 ++ 0#4 ++ 0b0#1 ++ 0#2 ++ 0b1#1 ++ 0#4) = true
    simp only [BitVec.and_append, BitVec.and_zero, BitVec.reduceAnd, beq_self_eq_true]
  · simp only [condAt, shiftAt, HAppend.hAppend, append_extract_lo, append_extract_hi, append_bit_lo, append_bit_hi,
      BitVec.extractLsb'_eq_self, Nat.reduceAdd, Nat.reduceLeDiff, Nat.reduceSub, Nat.reduceLT,
      Cond.ofBits_bits, Shift.ofBits_bits, ofBool_bit]

theorem mvnImm (c s sbz rd rot imm8) : Statement (.mvnImm c s sbz rd rot imm8) := by
  refine fun _ => ⟨45, _, rfl, ?_, ?_⟩
  · show (c.bits ++ 0b0011111#7 ++ BitVec.ofBool s ++ sbz ++ rd ++ rot ++ imm8 &&&
      (0#4 ++ 127#7 ++ 0#1 ++ 0#4 ++ 0#4 ++ 0#4 ++ 0#8) == 0#4 ++ 0b0011111#7 ++ 0#1 ++ 0#4 ++ 0#4 ++ 0#4 ++ 0#8) = true
    simp only [BitVec.and_append, BitVec.and_zero, BitVec.reduceAnd, beq_self_eq_true]
  · simp only [condAt, shiftAt, HAppend.hAppend, append_extract_lo, append_extract_hi, append_bit_lo, append_bit_hi,
      BitVec.extractLsb'_eq_self, Nat.reduceAdd, Nat.reduceLeDiff, Nat.reduceSub, Nat.reduceLT,
      Cond.ofBits_bits, Shift.ofBits_bits, ofBool_bit]

theorem mvnRsi (c s sbz rd amt sh rm) : Statement (.mvnRsi c s sbz rd amt sh rm) := by
  refine fun _ => ⟨46, _, rfl, ?_, ?_⟩
  · show (c.bits ++ 0b0001111#7 ++ BitVec.ofBool s ++ sbz ++ rd ++ amt ++ sh.bits ++ 0b0#1 ++ rm &&&
      (0#4 ++ 127#7 ++ 0#1 ++ 0#4 ++ 0#4 ++ 0#5 ++ 0#2 ++ 1#1 ++ 0#4) == 0#4 ++ 0b0001111#7 ++ 0#1 ++ 0#4 ++ 0#4 ++ 0#5 ++ 0#2 ++ 0b0#1 ++ 0#4) = true
    simp only [BitVec.and_append, BitVec.and_zero, BitVec.reduceAnd, beq_self_eq_true]
  · simp only [condAt, shiftAt, HAppend.hAppend, append_extract_lo, append_extract_hi, append_bit_lo, append_bit_hi,
      BitVec.extractLsb'_eq_self, Nat.reduceAdd, Nat.reduceLeDiff, Nat.reduceSub, Nat.reduceLT,
      Cond.ofBits_bits, Shift.ofBits_bits, ofBool_bit]

theorem mvnRsr (c s sbz rd rs sh rm) : Statement (.mvnRsr c s sbz rd rs sh rm) := by
  refine fun _ => ⟨47, _, rfl, ?_, ?_⟩
  · show (c.bits ++ 0b0001111#7 ++ BitVec.ofBool s ++ sbz ++ rd ++ rs ++ 0b0#1 ++ sh.bits ++ 0b1#1 ++ rm &&&
      (0#4 ++ 127#7 ++ 0#1 ++ 0#4 ++ 0#4 ++ 0#4 ++ 1#1 ++ 0#2 ++ 1#1 ++ 0#4) == 0#4 ++ 0b0001111#7 ++ 0#1 ++ 0#4 ++ 0#4 ++ 0#4 ++ 0b0#1 ++ 0#2 ++ 0b1#1 ++ 0#4) = true
    simp only [BitVec.and_append, BitVec.and_zero, BitVec.reduceAnd, beq_self_eq_true]
  · simp only [condAt, shiftAt, HAppend.hAppend, append_extract_lo, append_extract_hi, append_bit_lo, append_bit_hi,
      BitVec.extractLsb'_eq_self, Nat.reduceAdd, Nat.reduceLeDiff, Nat.reduceSub, Nat.reduceLT,
      Cond.ofBits_bits, Shift.ofBits_bits, ofBool_bit]

theorem mul (c s rd sbz rs rm) : Statement (.mul c s rd sbz rs rm) := by
  refine fun _ => ⟨48, _, rfl, ?_, ?_⟩
  · show (c.bits ++ 0b0000000#7 ++ BitVec.ofBool s ++ rd ++ sbz ++ rs ++ 0b1001#4 ++ rm &&&
      (0#4 ++ 127#7 ++ 0#1 ++ 0#4 ++ 0#4 ++ 0#4 ++ 15#4 ++ 0#4) == 0#4 ++ 0b0000000#7 ++ 0#1 ++ 0#4 ++ 0#4 ++ 0#4 ++ 0b1001#4 ++ 0#4) = true
    simp only [BitVec.and_append, BitVec.and_zero, BitVec.reduceAnd, beq_self_eq_true]
  · simp only [condAt, shiftAt, HAppend.hAppend, append_extract_lo, append_extract_hi, append_bit_lo, append_bit_hi,
      BitVec.extractLsb'_eq_self, Nat.reduceAdd, Nat.reduceLeDiff, Nat.reduceSub, Nat.reduceLT,
      Cond.ofBits_bits, Shift.ofBits_bits, ofBool_bit]

theorem mla (c s rd rn rs rm) : Statement (.mla c s rd rn rs rm) := by
  refine fun _ => ⟨49, _, rfl, ?_, ?_⟩
  · show (c.bits ++ 0b0000001#7 ++ BitVec.ofBool s ++ rd ++ rn ++ rs ++ 0b1001#4 ++ rm &&&
      (0#4 ++ 127#7 ++ 0#1 ++ 0#4 ++ 0#4 ++ 0#4 ++ 15#4 ++ 0#4) == 0#4 ++ 0b0000001#7 ++ 0#1 ++ 0#4 ++ 0#4 ++ 0#4 ++ 0b1001#4 ++ 0#4) = true
    simp only [BitVec.and_append, BitVec.and_zero, BitVec.reduceAnd, beq_self_eq_true]
  · simp only [condAt, shiftAt, HAppend.hAppend, append_extract_lo, append_extract_hi, append_bit_lo, append_bit_hi,
      BitVec.extractLsb'_eq_self, Nat.reduceAdd, Nat.reduceLeDiff, Nat.reduceSub, Nat.reduceLT,
      Cond.ofBits_bits, Shift.ofBits_bits, ofBool_bit]

theorem umull (c s rdHi rdLo rs rm) : Statement (.umull c s rdHi rdLo rs rm) := by
  refine fun _ => ⟨50, _, rfl, ?_, ?_⟩
  · show (c.bits ++ 0b0000100#7 ++ BitVec.ofBool s ++ rdHi ++ rdLo ++ rs ++ 0b1001#4 ++ rm &&&
      (0#4 ++ 127#7 ++ 0#1 ++ 0#4 ++ 0#4 ++ 0#4 ++ 15#4 ++ 0#4) == 0#4 ++ 0b0000100#7 ++ 0#1 ++ 0#4 ++ 0#4 ++ 0#4 ++ 0b1001#4 ++ 0#4) = true
    simp only [BitVec.and_append, BitVec.and_zero, BitVec.reduceAnd, beq_self_eq_true]
  · simp only [condAt, shiftAt, HAppend.hAppend, append_extract_lo, append_extract_hi, append_bit_lo, append_bit_hi,
      BitVec.extractLsb'_eq_self, Nat.reduceAdd, Nat.reduceLeDiff, Nat.reduceSub, Nat.reduceLT,
      Cond.ofBits_bits, Shift.ofBits_bits, ofBool_bit]

theorem umlal (c s rdHi rdLo rs rm) : Statement (.umlal c s rdHi rdLo rs rm) := by
  refine fun _ => ⟨51, _, rfl, ?_, ?_⟩
  · show (c.bits ++ 0b0000101#7 ++ BitVec.ofBool s ++ rdHi ++ rdLo ++ rs ++ 0b1001#4 ++ rm &&&
      (0#4 ++ 127#7 ++ 0#1 ++ 0#4 ++ 0#4 ++ 0#4 ++ 15#4 ++ 0#4) == 0#4 ++ 0b0000101#7 ++ 0#1 ++ 0#4 ++ 0#4 ++ 0#4 ++ 0b1001#4 ++ 0#4) = true
    simp only [BitVec.and_append, BitVec.and_zero, BitVec.reduceAnd, beq_self_eq_true]
  · simp only [condAt, shiftAt, HAppend.hAppend, append_extract_lo, append_extract_hi, append_bit_lo, append_bit_hi,
      BitVec.extractLsb'_eq_self, Nat.reduceAdd, Nat.reduceLeDiff, Nat.reduceSub, Nat.reduceLT,
      Cond.ofBits_bits, Shift.ofBits_bits, ofBool_bit]

theorem smull (c s rdHi rdLo rs rm) : Statement (.smull c s rdHi rdLo rs rm) := by
  refine fun _ => ⟨52, _, rfl, ?_, ?_⟩
  · show (c.bits ++ 0b0000110#7 ++ BitVec.ofBool s ++ rdHi ++ rdLo ++ rs ++ 0b1001#4 ++ rm &&&
      (0#4 ++ 127#7 ++ 0#1 ++ 0#4 ++ 0#4 ++ 0#4 ++ 15#4 ++ 0#4) == 0#4 ++ 0b0000110#7 ++ 0#1 ++ 0#4 ++ 0#4 ++ 0#4 ++ 0b1001#4 ++ 0#4) = true
    simp only [BitVec.and_append, BitVec.and_zero, BitVec.reduceAnd, beq_self_eq_true]
  · simp only [condAt, shiftAt, HAppend.hAppend, append_extract_lo, append_extract_hi, append_bit_lo, append_bit_hi,
      BitVec.extractLsb'_eq_self, Nat.reduceAdd, Nat.reduceLeDiff, Nat.reduceSub, Nat.reduceLT,
      Cond.ofBits_bits, Shift.ofBits_bits, ofBool_bit]

theorem smlal (c s rdHi rdLo rs rm) : Statement (.smlal c s rdHi rdLo rs rm) := by
  refine fun _ => ⟨53, _, rfl, ?_, ?_⟩
  · show (c.bits ++ 0b0000111#7 ++ BitVec.ofBool s ++ rdHi ++ rdLo ++ rs ++ 0b1001#4 ++ rm &&&
      (0#4 ++ 127#7 ++ 0#1 ++ 0#4 ++ 0#4 ++ 0#4 ++ 15#4 ++ 0#4) == 0#4 ++ 0b0000111#7 ++ 0#1 ++ 0#4 ++ 0#4 ++ 0#4 ++ 0b1001#4 ++ 0#4) = true
    simp only [BitVec.and_append, BitVec.and_zero, BitVec.reduceAnd, beq_self_eq_true]
  · simp only [condAt, shiftAt, HAppend.hAppend, append_extract_lo, append_extract_hi, append_bit_lo, append_bit_hi,
      BitVec.extractLsb'_eq_self, Nat.reduceAdd, Nat.reduceLeDiff, Nat.reduceSub, Nat.reduceLT,
      Cond.ofBits_bits, Shift.ofBits_bits, ofBool_bit]

theorem mrs (c r sbo rd sbzA sbzB sbzC) : Statement (.mrs c r sbo rd sbzA sbzB sbzC) := by
  refine fun _ => ⟨54, _, rfl, ?_, ?_⟩
  · show (c.bits ++ 0b00010#5 ++ BitVec.ofBool r ++ 0b00#2 ++ sbo ++ rd ++ sbzA ++ 0b0#1 ++ sbzB ++ 0b0#1 ++ sbzC &&&
      (0#4 ++ 31#5 ++ 0#1 ++ 3#2 ++ 0#4 ++ 0#4 ++ 0#4 ++ 1#1 ++ 0#2 ++ 1#1 ++ 0#4) == 0#4 ++ 0b00010#5 ++ 0#1 ++ 0b00#2 ++ 0#4 ++ 0#4 ++ 0#4 ++ 0b0#1 ++ 0#2 ++ 0b0#1 ++ 0#4) = true
    simp only [BitVec.and_append, BitVec.and_zero, BitVec.reduceAnd, beq_self_eq_true]
  · simp only [condAt, shiftAt, HAppend.hAppend, append_extract_lo, append_extract_hi, append_bit_lo, append_bit_hi,
      BitVec.extractLsb'_eq_self, Nat.reduceAdd, Nat.reduceLeDiff, Nat.reduceSub, Nat.reduceLT,
      Cond.ofBits_bits, Shift.ofBits_bits, ofBool_bit]

theorem msrReg (c r mask sbo sbzA sbzB rm) : Statement (.msrReg c r mask sbo sbzA sbzB rm) := by
  refine fun _ => ⟨55, _, rfl, ?_, ?_⟩
  · show (c.bits ++ 0b00010#5 ++ BitVec.ofBool r ++ 0b10#2 ++ mask ++ sbo ++ sbzA ++ 0b0#1 ++ sbzB ++ 0b0#1 ++ rm &&&
      (0#4 ++ 31#5 ++ 0#1 ++ 3#2 ++ 0#4 ++ 0#4 ++ 0#4 ++ 1#1 ++ 0#2 ++ 1#1 ++ 0#4) == 0#4 ++ 0b00010#5 ++ 0#1 ++ 0b10#2 ++ 0#4 ++ 0#4 ++ 0#4 ++ 0b0#1 ++ 0#2 ++ 0b0#1 ++ 0#4) = true
    simp only [BitVec.and_append, BitVec.and_zero, BitVec.reduceAnd, beq_self_eq_true]
  · simp only [condAt, shiftAt, HAppend.hAppend, append_extract_lo, append_extract_hi, append_bit_lo, append_bit_hi,
      BitVec.extractLsb'_eq_self, Nat.reduceAdd, Nat.reduceLeDiff, Nat.reduceSub, Nat.reduceLT,
      Cond.ofBits_bits, Shift.ofBits_bits, ofBool_bit]

theorem msrImm (c r mask sbo rot imm8) : Statement (.msrImm c r mask sbo rot imm8) := by
  refine fun _ => ⟨56, _, rfl, ?_, ?_⟩
  · show (c.bits ++ 0b00110#5 ++ BitVec.ofBool r ++ 0b10#2 ++ mask ++ sbo ++ rot ++ imm8 &&&
      (0#4 ++ 31#5 ++ 0#1 ++ 3#2 ++ 0#4 ++ 0#4 ++ 0#4 ++ 0#8) == 0#4 ++ 0b00110#5 ++ 0#1 ++ 0b10#2 ++ 0#4 ++ 0#4 ++ 0#4 ++ 0#8) = true
    simp only [BitVec.and_append, BitVec.and_zero, BitVec.reduceAnd, beq_self_eq_true]
  · simp only [condAt, shiftAt, HAppend.hAppend, append_extract_lo, append_extract_hi, append_bit_lo, append_bit_hi,
      BitVec.extractLsb'_eq_self, Nat.reduceAdd, Nat.reduceLeDiff, Nat.reduceSub, Nat.reduceLT,
      Cond.ofBits_bits, Shift.ofBits_bits, ofBool_bit]

theorem swp (c rn rd sbz rm) : Statement (.swp c rn rd sbz rm) := by
  refine fun _ => ⟨57, _, rfl, ?_, ?_⟩
  · show (c.bits ++ 0b00010000#8 ++ rn ++ rd ++ sbz ++ 0b1001#4 ++ rm &&&
      (0#4 ++ 255#8 ++ 0#4 ++ 0#4 ++ 0#4 ++ 15#4 ++ 0#4) == 0#4 ++ 0b00010000#8 ++ 0#4 ++ 0#4 ++ 0#4 ++ 0b1001#4 ++ 0#4) = true
    simp only [BitVec.and_append, BitVec.and_zero, BitVec.reduceAnd, beq_self_eq_true]
  · simp only [condAt, shiftAt, HAppend.hAppend, append_extract_lo, append_extract_hi, append_bit_lo, append_bit_hi,
      BitVec.extractLsb'_eq_self, Nat.reduceAdd, Nat.reduceLeDiff, Nat.reduceSub, Nat.reduceLT,
      Cond.ofBits_bits, Shift.ofBits_bits, ofBool_bit]

theorem swpb (c rn rd sbz rm) : Statement (.swpb c rn rd sbz rm) := by
  refine fun _ => ⟨58, _, rfl, ?_, ?_⟩
  · show (c.bits ++ 0b00010100#8 ++ rn ++ rd ++ sbz ++ 0b1001#4 ++ rm &&&
      (0#4 ++ 255#8 ++ 0#4 ++ 0#4 ++ 0#4 ++ 15#4 ++ 0#4) == 0#4 ++ 0b00010100#8 ++ 0#4 ++ 0#4 ++ 0#4 ++ 0b1001#4 ++ 0#4) = true
    simp only [BitVec.and_append, BitVec.and_zero, BitVec.reduceAnd, beq_self_eq_true]
  · simp only [condAt, shiftAt, HAppend.hAppend, append_extract_lo, append_extract_hi, append_bit_lo, append_bit_hi,
      BitVec.extractLsb'_eq_self, Nat.reduceAdd, Nat.reduceLeDiff, Nat.reduceSub, Nat.reduceLT,
      Cond.ofBits_bits, Shift.ofBits_bits, ofBool_bit]

theorem bx (c sbo rm) : Statement (.bx c sbo rm) := by
  refine fun _ => ⟨59, _, rfl, ?_, ?_⟩
  · show (c.bits ++ 0b00010010#8 ++ sbo ++ 0b0001#4 ++ rm &&&
      (0#4 ++ 255#8 ++ 0#12 ++ 15#4 ++ 0#4) == 0#4 ++ 0b00010010#8 ++ 0#12 ++ 0b0001#4 ++ 0#4) = true
    simp only [BitVec.and_append, BitVec.and_zero, BitVec.reduceAnd, beq_self_eq_true]
  · simp only [condAt, shiftAt, HAppend.hAppend, append_extract_lo, append_extract_hi, append_bit_lo, append_bit_hi,
      BitVec.extractLsb'_eq_self, Nat.reduceAdd, Nat.reduceLeDiff, Nat.reduceSub, Nat.reduceLT,
      Cond.ofBits_bits, Shift.ofBits_bits, ofBool_bit]

theorem strhReg (c p u w rn rd sbz rm) : Statement (.strhReg c p u w rn rd sbz rm) := by
  refine fun _ => ⟨60, _, rfl, ?_, ?_⟩
  · show (c.bits ++ 0b000#3 ++ BitVec.ofBool p ++ BitVec.ofBool u ++ 0b0#1 ++ BitVec.ofBool w ++ 0b0#1 ++ rn ++ rd ++ sbz ++ 0b1011#4 ++ rm &&&
      (0#4 ++ 7#3 ++ 0#1 ++ 0#1 ++ 1#1 ++ 0#1 ++ 1#1 ++ 0#4 ++ 0#4 ++ 0#4 ++ 15#4 ++ 0#4) == 0#4 ++ 0b000#3 ++ 0#1 ++ 0#1 ++ 0b0#1 ++ 0#1 ++ 0b0#1 ++ 0#4 ++ 0#4 ++ 0#4 ++ 0b1011#4 ++ 0#4) = true
    simp only [BitVec.and_append, BitVec.and_zero, BitVec.reduceAnd, beq_self_eq_true]
  · simp only [condAt, shiftAt, HAppend.hAppend, append_extract_lo, append_extract_hi, append_bit_lo, append_bit_hi,
      BitVec.extractLsb'_eq_self, Nat.reduceAdd, Nat.reduceLeDiff, Nat.reduceSub, Nat.reduceLT,
      Cond.ofBits_bits, Shift.ofBits_bits, ofBool_bit]

theorem strhImm (c p u w rn rd immH immL) : Statement (.strhImm c p u w rn rd immH immL) := by
  refine fun _ => ⟨61, _, rfl, ?_, ?_⟩
  · show (c.bits ++ 0b000#3 ++ BitVec.ofBool p ++ BitVec.ofBool u ++ 0b1#1 ++ BitVec.ofBool w ++ 0b0#1 ++ rn ++ rd ++ immH ++ 0b1011#4 ++ immL &&&
      (0#4 ++ 7#3 ++ 0#1 ++ 0#1 ++ 1#1 ++ 0#1 ++ 1#1 ++ 0#4 ++ 0#4 ++ 0#4 ++ 15#4 ++ 0#4) == 0#4 ++ 0b000#3 ++ 0#1 ++ 0#1 ++ 0b1#1 ++ 0#1 ++ 0b0#1 ++ 0#4 ++ 0#4 ++ 0#4 ++ 0b1011#4 ++ 0#4) = true
    simp only [BitVec.and_append, BitVec.and_zero, BitVec.reduceAnd, beq_self_eq_true]
  · simp only [condAt, shiftAt, HAppend.hAppend, append_extract_lo, append_extract_hi, append_bit_lo, append_bit_hi,
      BitVec.extractLsb'_eq_self, Nat.reduceAdd, Nat.reduceLeDiff, Nat.reduceSub, Nat.reduceLT,
      Cond.ofBits_bits, Shift.ofBits_bits, ofBool_bit]

theorem ldrhReg (c p u w rn rd sbz rm) : Statement (.ldrhReg c p u w rn rd sbz rm) := by
  refine fun _ => ⟨62, _, rfl, ?_, ?_⟩
  · show (c.bits ++ 0b000#3 ++ BitVec.ofBool p ++ BitVec.ofBool u ++ 0b0#1 ++ BitVec.ofBool w ++ 0b1#1 ++ rn ++ rd ++ sbz ++ 0b1011#4 ++ rm &&&
      (0#4 ++ 7#3 ++ 0#1 ++ 0#1 ++ 1#1 ++ 0#1 ++ 1#1 ++ 0#4 ++ 0#4 ++ 0#4 ++ 15#4 ++ 0#4) == 0#4 ++ 0b000#3 ++ 0#1 ++ 0#1 ++ 0b0#1 ++ 0#1 ++ 0b1#1 ++ 0#4 ++ 0#4 ++ 0#4 ++ 0b1011#4 ++ 0#4) = true
    simp only [BitVec.and_append, BitVec.and_zero, BitVec.reduceAnd, beq_self_eq_true]
  · simp only [condAt, shiftAt, HAppend.hAppend, append_extract_lo, append_extract_hi, append_bit_lo, append_bit_hi,
      BitVec.extractLsb'_eq_self, Nat.reduceAdd, Nat.reduceLeDiff, Nat.reduceSub, Nat.reduceLT,
      Cond.ofBits_bits, Shift.ofBits_bits, ofBool_bit]

theorem ldrhImm (c p u w rn rd immH immL) : Statement (.ldrhImm c p u w rn rd immH immL) := by
  refine fun _ => ⟨63, _, rfl, ?_, ?_⟩
  · show (c.bits ++ 0b000#3 ++ BitVec.ofBool p ++ BitVec.ofBool u ++ 0b1#1 ++ BitVec.ofBool w ++ 0b1#1 ++ rn ++ rd ++ immH ++ 0b1011#4 ++ immL &&&
      (0#4 ++ 7#3 ++ 0#1 ++ 0#1 ++ 1#1 ++ 0#1 ++ 1#1 ++ 0#4 ++ 0#4 ++ 0#4 ++ 15#4 ++ 0#4) == 0#4 ++ 0b000#3 ++ 0#1 ++ 0#1 ++ 0b1#1 ++ 0#1 ++ 0b1#1 ++ 0#4 ++ 0#4 ++ 0#4 ++ 0b1011#4 ++ 0#4) = true
    simp only [BitVec.and_append, BitVec.and_zero, BitVec.reduceAnd, beq_self_eq_true]
  · simp only [condAt, shiftAt, HAppend.hAppend, append_extract_lo, append_extract_hi, append_bit_lo, append_bit_hi,
      BitVec.extractLsb'_eq_self, Nat.reduceAdd, Nat.reduceLeDiff, Nat.reduceSub, Nat.reduceLT,
      Cond.ofBits_bits, Shift.ofBits_bits, ofBool_bit]

theorem ldrsbReg (c p u w rn rd sbz rm) : Statement (.ldrsbReg c p u w rn rd sbz rm) := by
  refine fun _ => ⟨64, _, rfl, ?_, ?_⟩
  · show (c.bits ++ 0b000#3 ++ BitVec.ofBool p ++ BitVec.ofBool u ++ 0b0#1 ++ BitVec.ofBool w ++ 0b1#1 ++ rn ++ rd ++ sbz ++ 0b1101#4 ++ rm &&&
      (0#4 ++ 7#3 ++ 0#1 ++ 0#1 ++ 1#1 ++ 0#1 ++ 1#1 ++ 0#4 ++ 0#4 ++ 0#4 ++ 15#4 ++ 0#4) == 0#4 ++ 0b000#3 ++ 0#1 ++ 0#1 ++ 0b0#1 ++ 0#1 ++ 0b1#1 ++ 0#4 ++ 0#4 ++ 0#4 ++ 0b1101#4 ++ 0#4) = true
    simp only [BitVec.and_append, BitVec.and_zero, BitVec.reduceAnd, beq_self_eq_true]
  · simp only [condAt, shiftAt, HAppend.hAppend, append_extract_lo, append_extract_hi, append_bit_lo, append_bit_hi,
      BitVec.extractLsb'_eq_self, Nat.reduceAdd, Nat.reduceLeDiff, Nat.reduceSub, Nat.reduceLT,
      Cond.ofBits_bits, Shift.ofBits_bits, ofBool_bit]

theorem ldrsbImm (c p u w rn rd immH immL) : Statement (.ldrsbImm c p u w rn rd immH immL) := by
  refine fun _ => ⟨65, _, rfl, ?_, ?_⟩
  · show (c.bits ++ 0b000#3 ++ BitVec.ofBool p ++ BitVec.ofBool u ++ 0b1#1 ++ BitVec.ofBool w ++ 0b1#1 ++ rn ++ rd ++ immH ++ 0b1101#4 ++ immL &&&
      (0#4 ++ 7#3 ++ 0#1 ++ 0#1 ++ 1#1 ++ 0#1 ++ 1#1 ++ 0#4 ++ 0#4 ++ 0#4 ++ 15#4 ++ 0#4) == 0#4 ++ 0b000#3 ++ 0#1 ++ 0#1 ++ 0b1#1 ++ 0#1 ++ 0b1#1 ++ 0#4 ++ 0#4 ++ 0#4 ++ 0b1101#4 ++ 0#4) = true
    simp only [BitVec.and_append, BitVec.and_zero, BitVec.reduceAnd, beq_self_eq_true]
  · simp only [condAt, shiftAt, HAppend.hAppend, append_extract_lo, append_extract_hi, append_bit_lo, append_bit_hi,
      BitVec.extractLsb'_eq_self, Nat.reduceAdd, Nat.reduceLeDiff, Nat.reduceSub, Nat.reduceLT,
      Cond.ofBits_bits, Shift.ofBits_bits, ofBool_bit]

theorem ldrshReg (c p u w rn rd sbz rm) : Statement (.ldrshReg c p u w rn rd sbz rm) := by
  refine fun _ => ⟨66, _, rfl, ?_, ?_⟩
  · show (c.bits ++ 0b000#3 ++ BitVec.ofBool p ++ BitVec.ofBool u ++ 0b0#1 ++ BitVec.ofBool w ++ 0b1#1 ++ rn ++ rd ++ sbz ++ 0b1111#4 ++ rm &&&
      (0#4 ++ 7#3 ++ 0#1 ++ 0#1 ++ 1#1 ++ 0#1 ++ 1#1 ++ 0#4 ++ 0#4 ++ 0#4 ++ 15#4 ++ 0#4) == 0#4 ++ 0b000#3 ++ 0#1 ++ 0#1 ++ 0b0#1 ++ 0#1 ++ 0b1#1 ++ 0#4 ++ 0#4 ++ 0#4 ++ 0b1111#4 ++ 0#4) = true
    simp only [BitVec.and_append, BitVec.and_zero, BitVec.reduceAnd, beq_self_eq_true]
  · simp only [condAt, shiftAt, HAppend.hAppend, append_extract_lo, append_extract_hi, append_bit_lo, append_bit_hi,
      BitVec.extractLsb'_eq_self, Nat.reduceAdd, Nat.reduceLeDiff, Nat.reduceSub, Nat.reduceLT,
      Cond.ofBits_bits, Shift.ofBits_bits, ofBool_bit]

theorem ldrshImm (c p u w rn rd immH immL) : Statement (.ldrshImm c p u w rn rd immH immL) := by
  refine fun _ => ⟨67, _, rfl, ?_, ?_⟩
  · show (c.bits ++ 0b000#3 ++ BitVec.ofBool p ++ BitVec.ofBool u ++ 0b1#1 ++ BitVec.ofBool w ++ 0b1#1 ++ rn ++ rd ++ immH ++ 0b1111#4 ++ immL &&&
      (0#4 ++ 7#3 ++ 0#1 ++ 0#1 ++ 1#1 ++ 0#1 ++ 1#1 ++ 0#4 ++ 0#4 ++ 0#4 ++ 15#4 ++ 0#4) == 0#4 ++ 0b000#3 ++ 0#1 ++ 0#1 ++ 0b1#1 ++ 0#1 ++ 0b1#1 ++ 0#4 ++ 0#4 ++ 0#4 ++ 0b1111#4 ++ 0#4) = true
    simp only [BitVec.and_append, BitVec.and_zero, BitVec.reduceAnd, beq_self_eq_true]
  · simp only [condAt, shiftAt, HAppend.hAppend, append_extract_lo, append_extract_hi, append_bit_lo, append_bit_hi,
      BitVec.extractLsb'_eq_self, Nat.reduceAdd, Nat.reduceLeDiff, Nat.reduceSub, Nat.reduceLT,
      Cond.ofBits_bits, Shift.ofBits_bits, ofBool_bit]

theorem ldrImmPre (c u w rn rd imm12) : Statement (.ldrImmPre c u w rn rd imm12) := by
  refine fun _ => ⟨68, _, rfl, ?_, ?_⟩
  · show (c.bits ++ 0b0101#4 ++ BitVec.ofBool u ++ 0b0#1 ++ BitVec.ofBool w ++ 0b1#1 ++ rn ++ rd ++ imm12 &&&
      (0#4 ++ 15#4 ++ 0#1 ++ 1#1 ++ 0#1 ++ 1#1 ++ 0#4 ++ 0#4 ++ 0#12) == 0#4 ++ 0b0101#4 ++ 0#1 ++ 0b0#1 ++ 0#1 ++ 0b1#1 ++ 0#4 ++ 0#4 ++ 0#12) = true
    simp only [BitVec.and_append, BitVec.and_zero, BitVec.reduceAnd, beq_self_eq_true]
  · simp only [condAt, shiftAt, HAppend.hAppend, append_extract_lo, append_extract_hi, append_bit_lo, append_bit_hi,
      BitVec.extractLsb'_eq_self, Nat.reduceAdd, Nat.reduceLeDiff, Nat.reduceSub, Nat.reduceLT,
      Cond.ofBits_bits, Shift.ofBits_bits, ofBool_bit]

theorem ldrImmPost (c u rn rd imm12) : Statement (.ldrImmPost c u rn rd imm12) := by
  refine fun _ => ⟨69, _, rfl, ?_, ?_⟩
  · show (c.bits ++ 0b0100#4 ++ BitVec.ofBool u ++ 0b001#3 ++ rn ++ rd ++ imm12 &&&
      (0#4 ++ 15#4 ++ 0#1 ++ 7#3 ++ 0#4 ++ 0#4 ++ 0#12) == 0#4 ++ 0b0100#4 ++ 0#1 ++ 0b001#3 ++ 0#4 ++ 0#4 ++ 0#12) = true
    simp only [BitVec.and_append, BitVec.and_zero, BitVec.reduceAnd, beq_self_eq_true]
  · simp only [condAt, shiftAt, HAppend.hAppend, append_extract_lo, append_extract_hi, append_bit_lo, append_bit_hi,
      BitVec.extractLsb'_eq_self, Nat.reduceAdd, Nat.reduceLeDiff, Nat.reduceSub, Nat.reduceLT,
      Cond.ofBits_bits, Shift.ofBits_bits, ofBool_bit]

theorem ldrRegPre (c u w rn rd amt sh rm) : Statement (.ldrRegPre c u w rn rd amt sh rm) := by
  refine fun _ => ⟨70, _, rfl, ?_, ?_⟩
  · show (c.bits ++ 0b0111#4 ++ BitVec.ofBool u ++ 0b0#1 ++ BitVec.ofBool w ++ 0b1#1 ++ rn ++ rd ++ amt ++ sh.bits ++ 0b0#1 ++ rm &&&
      (0#4 ++ 15#4 ++ 0#1 ++ 1#1 ++ 0#1 ++ 1#1 ++ 0#4 ++ 0#4 ++ 0#5 ++ 0#2 ++ 1#1 ++ 0#4) == 0#4 ++ 0b0111#4 ++ 0#1 ++ 0b0#1 ++ 0#1 ++ 0b1#1 ++ 0#4 ++ 0#4 ++ 0#5 ++ 0#2 ++ 0b0#1 ++ 0#4) = true
    simp only [BitVec.and_append, BitVec.and_zero, BitVec.reduceAnd, beq_self_eq_true]
  · simp only [condAt, shiftAt, HAppend.hAppend, append_extract_lo, append_extract_hi, append_bit_lo, append_bit_hi,
      BitVec.extractLsb'_eq_self, Nat.reduceAdd, Nat.reduceLeDiff, Nat.reduceSub, Nat.reduceLT,
      Cond.ofBits_bits, Shift.ofBits_bits, ofBool_bit]

theorem ldrRegPost (c u rn rd amt sh rm) : Statement (.ldrRegPost c u rn rd amt sh rm) := by
  refine fun _ => ⟨71, _, rfl, ?_, ?_⟩
  · show (c.bits ++ 0b0110#4 ++ BitVec.ofBool u ++ 0b001#3 ++ rn ++ rd ++ amt ++ sh.bits ++ 0b0#1 ++ rm &&&
      (0#4 ++ 15#4 ++ 0#1 ++ 7#3 ++ 0#4 ++ 0#4 ++ 0#5 ++ 0#2 ++ 1#1 ++ 0#4) == 0#4 ++ 0b0110#4 ++ 0#1 ++ 0b001#3 ++ 0#4 ++ 0#4 ++ 0#5 ++ 0#2 ++ 0b0#1 ++ 0#4) = true
    simp only [BitVec.and_append, BitVec.and_zero, BitVec.reduceAnd, beq_self_eq_true]
  · simp only [condAt, shiftAt, HAppend.hAppend, append_extract_lo, append_extract_hi, append_bit_lo, append_bit_hi,
      BitVec.extractLsb'_eq_self, Nat.reduceAdd, Nat.reduceLeDiff, Nat.reduceSub, Nat.reduceLT,
      Cond.ofBits_bits, Shift.ofBits_bits, ofBool_bit]

theorem strImmPre (c u w rn rd imm12) : Statement (.strImmPre c u w rn rd imm12) := by
  refine fun _ => ⟨72, _, rfl, ?_, ?_⟩
  · show (c.bits ++ 0b0101#4 ++ BitVec.ofBool u ++ 0b0#1 ++ BitVec.ofBool w ++ 0b0#1 ++ rn ++ rd ++ imm12 &&&
      (0#4 ++ 15#4 ++ 0#1 ++ 1#1 ++ 0#1 ++ 1#1 ++ 0#4 ++ 0#4 ++ 0#12) == 0#4 ++ 0b0101#4 ++ 0#1 ++ 0b0#1 ++ 0#1 ++ 0b0#1 ++ 0#4 ++ 0#4 ++ 0#12) = true
    simp only [BitVec.and_append, BitVec.and_zero, BitVec.reduceAnd, beq_self_eq_true]
  · simp only [condAt, shiftAt, HAppend.hAppend, append_extract_lo, append_extract_hi, append_bit_lo, append_bit_hi,
      BitVec.extractLsb'_eq_self, Nat.reduceAdd, Nat.reduceLeDiff, Nat.reduceSub, Nat.reduceLT,
      Cond.ofBits_bits, Shift.ofBits_bits, ofBool_bit]

theorem strImmPost (c u rn rd imm12) : Statement (.strImmPost c u rn rd imm12) := by
  refine fun _ => ⟨73, _, rfl, ?_, ?_⟩
  · show (c.bits ++ 0b0100#4 ++ BitVec.ofBool u ++ 0b000#3 ++ rn ++ rd ++ imm12 &&&
      (0#4 ++ 15#4 ++ 0#1 ++ 7#3 ++ 0#4 ++ 0#4 ++ 0#12) == 0#4 ++ 0b0100#4 ++ 0#1 ++ 0b000#3 ++ 0#4 ++ 0#4 ++ 0#12) = true
    simp only [BitVec.and_append, BitVec.and_zero, BitVec.reduceAnd, beq_self_eq_true]
  · simp only [condAt, shiftAt, HAppend.hAppend, append_extract_lo, append_extract_hi, append_bit_lo, append_bit_hi,
      BitVec.extractLsb'_eq_self, Nat.reduceAdd, Nat.reduceLeDiff, Nat.reduceSub, Nat.reduceLT,
      Cond.ofBits_bits, Shift.ofBits_bits, ofBool_bit]

theorem strRegPre (c u w rn rd amt sh rm) : Statement (.strRegPre c u w rn rd amt sh rm) := by
  refine fun _ => ⟨74, _, rfl, ?_, ?_⟩
  · show (c.bits ++ 0b0111#4 ++ BitVec.ofBool u ++ 0b0#1 ++ BitVec.ofBool w ++ 0b0#1 ++ rn ++ rd ++ amt ++ sh.bits ++ 0b0#1 ++ rm &&&
      (0#4 ++ 15#4 ++ 0#1 ++ 1#1 ++ 0#1 ++ 1#1 ++ 0#4 ++ 0#4 ++ 0#5 ++ 0#2 ++ 1#1 ++ 0#4) == 0#4 ++ 0b0111#4 ++ 0#1 ++ 0b0#1 ++ 0#1 ++ 0b0#1 ++ 0#4 ++ 0#4 ++ 0#5 ++ 0#2 ++ 0b0#1 ++ 0#4) = true
    simp only [BitVec.and_append, BitVec.and_zero, BitVec.reduceAnd, beq_self_eq_true]
  · simp only [condAt, shiftAt, HAppend.hAppend, append_extract_lo, append_extract_hi, append_bit_lo, append_bit_hi,
      BitVec.extractLsb'_eq_self, Nat.reduceAdd, Nat.reduceLeDiff, Nat.reduceSub, Nat.reduceLT,
      Cond.ofBits_bits, Shift.ofBits_bits, ofBool_bit]

theorem strRegPost (c u rn rd amt sh rm) : Statement (.strRegPost c u rn rd amt sh rm) := by
  refine fun _ => ⟨75, _, rfl, ?_, ?_⟩
  · show (c.bits ++ 0b0110#4 ++ BitVec.ofBool u ++ 0b000#3 ++ rn ++ rd ++ amt ++ sh.bits ++ 0b0#1 ++ rm &&&
      (0#4 ++ 15#4 ++ 0#1 ++ 7#3 ++ 0#4 ++ 0#4 ++ 0#5 ++ 0#2 ++ 1#1 ++ 0#4) == 0#4 ++ 0b0110#4 ++ 0#1 ++ 0b000#3 ++ 0#4 ++ 0#4 ++ 0#5 ++ 0#2 ++ 0b0#1 ++ 0#4) = true
    simp only [BitVec.and_append, BitVec.and_zero, BitVec.reduceAnd, beq_self_eq_true]
  · simp only [condAt, shiftAt, HAppend.hAppend, append_extract_lo, append_extract_hi, append_bit_lo, append_bit_hi,
      BitVec.extractLsb'_eq_self, Nat.reduceAdd, Nat.reduceLeDiff, Nat.reduceSub, Nat.reduceLT,
      Cond.ofBits_bits, Shift.ofBits_bits, ofBool_bit]

theorem ldrbImmPre (c u w rn rd imm12) : Statement (.ldrbImmPre c u w rn rd imm12) := by
  refine fun _ => ⟨76, _, rfl, ?_, ?_⟩
  · show (c.bits ++ 0b0101#4 ++ BitVec.ofBool u ++ 0b1#1 ++ BitVec.ofBool w ++ 0b1#1 ++ rn ++ rd ++ imm12 &&&
      (0#4 ++ 15#4 ++ 0#1 ++ 1#1 ++ 0#1 ++ 1#1 ++ 0#4 ++ 0#4 ++ 0#12) == 0#4 ++ 0b0101#4 ++ 0#1 ++ 0b1#1 ++ 0#1 ++ 0b1#1 ++ 0#4 ++ 0#4 ++ 0#12) = true
    simp only [BitVec.and_append, BitVec.and_zero, BitVec.reduceAnd, beq_self_eq_true]
  · simp only [condAt, shiftAt, HAppend.hAppend, append_extract_lo, append_extract_hi, append_bit_lo, append_bit_hi,
      BitVec.extractLsb'_eq_self, Nat.reduceAdd, Nat.reduceLeDiff, Nat.reduceSub, Nat.reduceLT,
      Cond.ofBits_bits, Shift.ofBits_bits, ofBool_bit]

theorem ldrbImmPost (c u rn rd imm12) : Statement (.ldrbImmPost c u rn rd imm12) := by
  refine fun _ => ⟨77, _, rfl, ?_, ?_⟩
  · show (c.bits ++ 0b0100#4 ++ BitVec.ofBool u ++ 0b101#3 ++ rn ++ rd ++ imm12 &&&
      (0#4 ++ 15#4 ++ 0#1 ++ 7#3 ++ 0#4 ++ 0#4 ++ 0#12) == 0#4 ++ 0b0100#4 ++ 0#1 ++ 0b101#3 ++ 0#4 ++ 0#4 ++ 0#12) = true
    simp only [BitVec.and_append, BitVec.and_zero, BitVec.reduceAnd, beq_self_eq_true]
  · simp only [condAt, shiftAt, HAppend.hAppend, append_extract_lo, append_extract_hi, append_bit_lo, append_bit_hi,
      BitVec.extractLsb'_eq_self, Nat.reduceAdd, Nat.reduceLeDiff, Nat.reduceSub, Nat.reduceLT,
      Cond.ofBits_bits, Shift.ofBits_bits, ofBool_bit]

theorem ldrbRegPre (c u w rn rd amt sh rm) : Statement (.ldrbRegPre c u w rn rd amt sh rm) := by
  refine fun _ => ⟨78, _, rfl, ?_, ?_⟩
  · show (c.bits ++ 0b0111#4 ++ BitVec.ofBool u ++ 0b1#1 ++ BitVec.ofBool w ++ 0b1#1 ++ rn ++ rd ++ amt ++ sh.bits ++ 0b0#1 ++ rm &&&
      (0#4 ++ 15#4 ++ 0#1 ++ 1#1 ++ 0#1 ++ 1#1 ++ 0#4 ++ 0#4 ++ 0#5 ++ 0#2 ++ 1#1 ++ 0#4) == 0#4 ++ 0b0111#4 ++ 0#1 ++ 0b1#1 ++ 0#1 ++ 0b1#1 ++ 0#4 ++ 0#4 ++ 0#5 ++ 0#2 ++ 0b0#1 ++ 0#4) = true
    simp only [BitVec.and_append, BitVec.and_zero, BitVec.reduceAnd, beq_self_eq_true]
  · simp only [condAt, shiftAt, HAppend.hAppend, append_extract_lo, append_extract_hi, append_bit_lo, append_bit_hi,
      BitVec.extractLsb'_eq_self, Nat.reduceAdd, Nat.reduceLeDiff, Nat.reduceSub, Nat.reduceLT,
      Cond.ofBits_bits, Shift.ofBits_bits, ofBool_bit]

theorem ldrbRegPost (c u rn rd amt sh rm) : Statement (.ldrbRegPost c u rn rd amt sh rm) := by
  refine fun _ => ⟨79, _, rfl, ?_, ?_⟩
  · show (c.bits ++ 0b0110#4 ++ BitVec.ofBool u ++ 0b101#3 ++ rn ++ rd ++ amt ++ sh.bits ++ 0b0#1 ++ rm &&&
      (0#4 ++ 15#4 ++ 0#1 ++ 7#3 ++ 0#4 ++ 0#4 ++ 0#5 ++ 0#2 ++ 1#1 ++ 0#4) == 0#4 ++ 0b0110#4 ++ 0#1 ++ 0b101#3 ++ 0#4 ++ 0#4 ++ 0#5 ++ 0#2 ++ 0b0#1 ++ 0#4) = true
    simp only [BitVec.and_append, BitVec.and_zero, BitVec.reduceAnd, beq_self_eq_true]
  · simp only [condAt, shiftAt, HAppend.hAppend, append_extract_lo, append_extract_hi, append_bit_lo, append_bit_hi,
      BitVec.extractLsb'_eq_self, Nat.reduceAdd, Nat.reduceLeDiff, Nat.reduceSub, Nat.reduceLT,
      Cond.ofBits_bits, Shift.ofBits_bits, ofBool_bit]

theorem strbImmPre (c u w rn rd imm12) : Statement (.strbImmPre c u w rn rd imm12) := by
  refine fun _ => ⟨80, _, rfl, ?_, ?_⟩
  · show (c.bits ++ 0b0101#4 ++ BitVec.ofBool u ++ 0b1#1 ++ BitVec.ofBool w ++ 0b0#1 ++ rn ++ rd ++ imm12 &&&
      (0#4 ++ 15#4 ++ 0#1 ++ 1#1 ++ 0#1 ++ 1#1 ++ 0#4 ++ 0#4 ++ 0#12) == 0#4 ++ 0b0101#4 ++ 0#1 ++ 0b1#1 ++ 0#1 ++ 0b0#1 ++ 0#4 ++ 0#4 ++ 0#12) = true
    simp only [BitVec.and_append, BitVec.and_zero, BitVec.reduceAnd, beq_self_eq_true]
  · simp only [condAt, shiftAt, HAppend.hAppend, append_extract_lo, append_extract_hi, append_bit_lo, append_bit_hi,
      BitVec.extractLsb'_eq_self, Nat.reduceAdd, Nat.reduceLeDiff, Nat.reduceSub, Nat.reduceLT,
      Cond.ofBits_bits, Shift.ofBits_bits, ofBool_bit]

theorem strbImmPost (c u rn rd imm12) : Statement (.strbImmPost c u rn rd imm12) := by
  refine fun _ => ⟨81, _, rfl, ?_, ?_⟩
  · show (c.bits ++ 0b0100#4 ++ BitVec.ofBool u ++ 0b100#3 ++ rn ++ rd ++ imm12 &&&
      (0#4 ++ 15#4 ++ 0#1 ++ 7#3 ++ 0#4 ++ 0#4 ++ 0#12) == 0#4 ++ 0b0100#4 ++ 0#1 ++ 0b100#3 ++ 0#4 ++ 0#4 ++ 0#12) = true
    simp only [BitVec.and_append, BitVec.and_zero, BitVec.reduceAnd, beq_self_eq_true]
  · simp only [condAt, shiftAt, HAppend.hAppend, append_extract_lo, append_extract_hi, append_bit_lo, append_bit_hi,
      BitVec.extractLsb'_eq_self, Nat.reduceAdd, Nat.reduceLeDiff, Nat.reduceSub, Nat.reduceLT,
      Cond.ofBits_bits, Shift.ofBits_bits, ofBool_bit]

theorem strbRegPre (c u w rn rd amt sh rm) : Statement (.strbRegPre c u w rn rd amt sh rm) := by
  refine fun _ => ⟨82, _, rfl, ?_, ?_⟩
  · show (c.bits ++ 0b0111#4 ++ BitVec.ofBool u ++ 0b1#1 ++ BitVec.ofBool w ++ 0b0#1 ++ rn ++ rd ++ amt ++ sh.bits ++ 0b0#1 ++ rm &&&
      (0#4 ++ 15#4 ++ 0#1 ++ 1#1 ++ 0#1 ++ 1#1 ++ 0#4 ++ 0#4 ++ 0#5 ++ 0#2 ++ 1#1 ++ 0#4) == 0#4 ++ 0b0111#4 ++ 0#1 ++ 0b1#1 ++ 0#1 ++ 0b0#1 ++ 0#4 ++ 0#4 ++ 0#5 ++ 0#2 ++ 0b0#1 ++ 0#4) = true
    simp only [BitVec.and_append, BitVec.and_zero, BitVec.reduceAnd, beq_self_eq_true]
  · simp only [condAt, shiftAt, HAppend.hAppend, append_extract_lo, append_extract_hi, append_bit_lo, append_bit_hi,
      BitVec.extractLsb'_eq_self, Nat.reduceAdd, Nat.reduceLeDiff, Nat.reduceSub, Nat.reduceLT,
      Cond.ofBits_bits, Shift.ofBits_bits, ofBool_bit]

theorem strbRegPost (c u rn rd amt sh rm) : Statement (.strbRegPost c u rn rd amt sh rm) := by
  refine fun _ => ⟨83, _, rfl, ?_, ?_⟩
  · show (c.bits ++ 0b0110#4 ++ BitVec.ofBool u ++ 0b100#3 ++ rn ++ rd ++ amt ++ sh.bits ++ 0b0#1 ++ rm &&&
      (0#4 ++ 15#4 ++ 0#1 ++ 7#3 ++ 0#4 ++ 0#4 ++ 0#5 ++ 0#2 ++ 1#1 ++ 0#4) == 0#4 ++ 0b0110#4 ++ 0#1 ++ 0b100#3 ++ 0#4 ++ 0#4 ++ 0#5 ++ 0#2 ++ 0b0#1 ++ 0#4) = true
    simp only [BitVec.and_append, BitVec.and_zero, BitVec.reduceAnd, beq_self_eq_true]
  · simp only [condAt, shiftAt, HAppend.hAppend, append_extract_lo, append_extract_hi, append_bit_lo, append_bit_hi,
      BitVec.extractLsb'_eq_self, Nat.reduceAdd, Nat.reduceLeDiff, Nat.reduceSub, Nat.reduceLT,
      Cond.ofBits_bits, Shift.ofBits_bits, ofBool_bit]

theorem ldrtImm (c u rn rd imm12) : Statement (.ldrtImm c u rn rd imm12) := by
  refine fun _ => ⟨84, _, rfl, ?_, ?_⟩
  · show (c.bits ++ 0b0100#4 ++ BitVec.ofBool u ++ 0b011#3 ++ rn ++ rd ++ imm12 &&&
      (0#4 ++ 15#4 ++ 0#1 ++ 7#3 ++ 0#4 ++ 0#4 ++ 0#12) == 0#4 ++ 0b0100#4 ++ 0#1 ++ 0b011#3 ++ 0#4 ++ 0#4 ++ 0#12) = true
    simp only [BitVec.and_append, BitVec.and_zero, BitVec.reduceAnd, beq_self_eq_true]
  · simp only [condAt, shiftAt, HAppend.hAppend, append_extract_lo, append_extract_hi, append_bit_lo, append_bit_hi,
      BitVec.extractLsb'_eq_self, Nat.reduceAdd, Nat.reduceLeDiff, Nat.reduceSub, Nat.reduceLT,
      Cond.ofBits_bits, Shift.ofBits_bits, ofBool_bit]

theorem ldrtReg (c u rn rd amt sh rm) : Statement (.ldrtReg c u rn rd amt sh rm) := by
  refine fun _ => ⟨85, _, rfl, ?_, ?_⟩
  · show (c.bits ++ 0b0110#4 ++ BitVec.ofBool u ++ 0b011#3 ++ rn ++ rd ++ amt ++ sh.bits ++ 0b0#1 ++ rm &&&
      (0#4 ++ 15#4 ++ 0#1 ++ 7#3 ++ 0#4 ++ 0#4 ++ 0#5 ++ 0#2 ++ 1#1 ++ 0#4) == 0#4 ++ 0b0110#4 ++ 0#1 ++ 0b011#3 ++ 0#4 ++ 0#4 ++ 0#5 ++ 0#2 ++ 0b0#1 ++ 0#4) = true
    simp only [BitVec.and_append, BitVec.and_zero, BitVec.reduceAnd, beq_self_eq_true]
  · simp only [condAt, shiftAt, HAppend.hAppend, append_extract_lo, append_extract_hi, append_bit_lo, append_bit_hi,
      BitVec.extractLsb'_eq_self, Nat.reduceAdd, Nat.reduceLeDiff, Nat.reduceSub, Nat.reduceLT,
      Cond.ofBits_bits, Shift.ofBits_bits, ofBool_bit]

theorem strtImm (c u rn rd imm12) : Statement (.strtImm c u rn rd imm12) := by
  refine fun _ => ⟨86, _, rfl, ?_, ?_⟩
  · show (c.bits ++ 0b0100#4 ++ BitVec.ofBool u ++ 0b010#3 ++ rn ++ rd ++ imm12 &&&
      (0#4 ++ 15#4 ++ 0#1 ++ 7#3 ++ 0#4 ++ 0#4 ++ 0#12) == 0#4 ++ 0b0100#4 ++ 0#1 ++ 0b010#3 ++ 0#4 ++ 0#4 ++ 0#12) = true
    simp only [BitVec.and_append, BitVec.and_zero, BitVec.reduceAnd, beq_self_eq_true]
  · simp only [condAt, shiftAt, HAppend.hAppend, append_extract_lo, append_extract_hi, append_bit_lo, append_bit_hi,
      BitVec.extractLsb'_eq_self, Nat.reduceAdd, Nat.reduceLeDiff, Nat.reduceSub, Nat.reduceLT,
      Cond.ofBits_bits, Shift.ofBits_bits, ofBool_bit]

theorem strtReg (c u rn rd amt sh rm) : Statement (.strtReg c u rn rd amt sh rm) := by
  refine fun _ => ⟨87, _, rfl, ?_, ?_⟩
  · show (c.bits ++ 0b0110#4 ++ BitVec.ofBool u ++ 0b010#3 ++ rn ++ rd ++ amt ++ sh.bits ++ 0b0#1 ++ rm &&&
      (0#4 ++ 15#4 ++ 0#1 ++ 7#3 ++ 0#4 ++ 0#4 ++ 0#5 ++ 0#2 ++ 1#1 ++ 0#4) == 0#4 ++ 0b0110#4 ++ 0#1 ++ 0b010#3 ++ 0#4 ++ 0#4 ++ 0#5 ++ 0#2 ++ 0b0#1 ++ 0#4) = true
    simp only [BitVec.and_append, BitVec.and_zero, BitVec.reduceAnd, beq_self_eq_true]
  · simp only [condAt, shiftAt, HAppend.hAppend, append_extract_lo, append_extract_hi, append_bit_lo, append_bit_hi,
      BitVec.extractLsb'_eq_self, Nat.reduceAdd, Nat.reduceLeDiff, Nat.reduceSub, Nat.reduceLT,
      Cond.ofBits_bits, Shift.ofBits_bits, ofBool_bit]

theorem ldrbtImm (c u rn rd imm12) : Statement (.ldrbtImm c u rn rd imm12) := by
  refine fun _ => ⟨88, _, rfl, ?_, ?_⟩
  · show (c.bits ++ 0b0100#4 ++ BitVec.ofBool u ++ 0b111#3 ++ rn ++ rd ++ imm12 &&&
      (0#4 ++ 15#4 ++ 0#1 ++ 7#3 ++ 0#4 ++ 0#4 ++ 0#12) == 0#4 ++ 0b0100#4 ++ 0#1 ++ 0b111#3 ++ 0#4 ++ 0#4 ++ 0#12) = true
    simp only [BitVec.and_append, BitVec.and_zero, BitVec.reduceAnd, beq_self_eq_true]
  · simp only [condAt, shiftAt, HAppend.hAppend, append_extract_lo, append_extract_hi, append_bit_lo, append_bit_hi,
      BitVec.extractLsb'_eq_self, Nat.reduceAdd, Nat.reduceLeDiff, Nat.reduceSub, Nat.reduceLT,
      Cond.ofBits_bits, Shift.ofBits_bits, ofBool_bit]

theorem ldrbtReg (c u rn rd amt sh rm) : Statement (.ldrbtReg c u rn rd amt sh rm) := by
  refine fun _ => ⟨89, _, rfl, ?_, ?_⟩
  · show (c.bits ++ 0b0110#4 ++ BitVec.ofBool u ++ 0b111#3 ++ rn ++ rd ++ amt ++ sh.bits ++ 0b0#1 ++ rm &&&
      (0#4 ++ 15#4 ++ 0#1 ++ 7#3 ++ 0#4 ++ 0#4 ++ 0#5 ++ 0#2 ++ 1#1 ++ 0#4) == 0#4 ++ 0b0110#4 ++ 0#1 ++ 0b111#3 ++ 0#4 ++ 0#4 ++ 0#5 ++ 0#2 ++ 0b0#1 ++ 0#4) = true
    simp only [BitVec.and_append, BitVec.and_zero, BitVec.reduceAnd, beq_self_eq_true]
  · simp only [condAt, shiftAt, HAppend.hAppend, append_extract_lo, append_extract_hi, append_bit_lo, append_bit_hi,
      BitVec.extractLsb'_eq_self, Nat.reduceAdd, Nat.reduceLeDiff, Nat.reduceSub, Nat.reduceLT,
      Cond.ofBits_bits, Shift.ofBits_bits, ofBool_bit]

theorem strbtImm (c u rn rd imm12) : Statement (.strbtImm c u rn rd imm12) := by
  refine fun _ => ⟨90, _, rfl, ?_, ?_⟩
  · show (c.bits ++ 0b0100#4 ++ BitVec.ofBool u ++ 0b110#3 ++ rn ++ rd ++ imm12 &&&
      (0#4 ++ 15#4 ++ 0#1 ++ 7#3 ++ 0#4 ++ 0#4 ++ 0#12) == 0#4 ++ 0b0100#4 ++ 0#1 ++ 0b110#3 ++ 0#4 ++ 0#4 ++ 0#12) = true
    simp only [BitVec.and_append, BitVec.and_zero, BitVec.reduceAnd, beq_self_eq_true]
  · simp only [condAt, shiftAt, HAppend.hAppend, append_extract_lo, append_extract_hi, append_bit_lo, append_bit_hi,
      BitVec.extractLsb'_eq_self, Nat.reduceAdd, Nat.reduceLeDiff, Nat.reduceSub, Nat.reduceLT,
      Cond.ofBits_bits, Shift.ofBits_bits, ofBool_bit]

theorem strbtReg (c u rn rd amt sh rm) : Statement (.strbtReg c u rn rd amt sh rm) := by
  refine fun _ => ⟨91, _, rfl, ?_, ?_⟩
  · show (c.bits ++ 0b0110#4 ++ BitVec.ofBool u ++ 0b110#3 ++ rn ++ rd ++ amt ++ sh.bits ++ 0b0#1 ++ rm &&&
      (0#4 ++ 15#4 ++ 0#1 ++ 7#3 ++ 0#4 ++ 0#4 ++ 0#5 ++ 0#2 ++ 1#1 ++ 0#4) == 0#4 ++ 0b0110#4 ++ 0#1 ++ 0b110#3 ++ 0#4 ++ 0#4 ++ 0#5 ++ 0#2 ++ 0b0#1 ++ 0#4) = true
    simp only [BitVec.and_append, BitVec.and_zero, BitVec.reduceAnd, beq_self_eq_true]
  · simp only [condAt, shiftAt, HAppend.hAppend, append_extract_lo, append_extract_hi, append_bit_lo, append_bit_hi,
      BitVec.extractLsb'_eq_self, Nat.reduceAdd, Nat.reduceLeDiff, Nat.reduceSub, Nat.reduceLT,
      Cond.ofBits_bits, Shift.ofBits_bits, ofBool_bit]

theorem und (c hi lo) : Statement (.und c hi lo) := by
  refine fun _ => ⟨92, _, rfl, ?_, ?_⟩
  · show (c.bits ++ 0b011#3 ++ hi ++ 0b1#1 ++ lo &&&
      (0#4 ++ 7#3 ++ 0#20 ++ 1#1 ++ 0#4) == 0#4 ++ 0b011#3 ++ 0#20 ++ 0b1#1 ++ 0#4) = true
    simp only [BitVec.and_append, BitVec.and_zero, BitVec.reduceAnd, beq_self_eq_true]
  · simp only [condAt, shiftAt, HAppend.hAppend, append_extract_lo, append_extract_hi, append_bit_lo, append_bit_hi,
      BitVec.extractLsb'_eq_self, Nat.reduceAdd, Nat.reduceLeDiff, Nat.reduceSub, Nat.reduceLT,
      Cond.ofBits_bits, Shift.ofBits_bits, ofBool_bit]

theorem ldm (c p u w rn list) : Statement (.ldm c p u w rn list) := by
  refine fun _ => ⟨93, _, rfl, ?_, ?_⟩
  · show (c.bits ++ 0b100#3 ++ BitVec.ofBool p ++ BitVec.ofBool u ++ 0b0#1 ++ BitVec.ofBool w ++ 0b1#1 ++ rn ++ list &&&
      (0#4 ++ 7#3 ++ 0#1 ++ 0#1 ++ 1#1 ++ 0#1 ++ 1#1 ++ 0#4 ++ 0#16) == 0#4 ++ 0b100#3 ++ 0#1 ++ 0#1 ++ 0b0#1 ++ 0#1 ++ 0b1#1 ++ 0#4 ++ 0#16) = true
    simp only [BitVec.and_append, BitVec.and_zero, BitVec.reduceAnd, beq_self_eq_true]
  · simp only [condAt, shiftAt, HAppend.hAppend, append_extract_lo, append_extract_hi, append_bit_lo, append_bit_hi,
      BitVec.extractLsb'_eq_self, Nat.reduceAdd, Nat.reduceLeDiff, Nat.reduceSub, Nat.reduceLT,
      Cond.ofBits_bits, Shift.ofBits_bits, ofBool_bit]

theorem stm (c p u w rn list) : Statement (.stm c p u w rn list) := by
  refine fun _ => ⟨94, _, rfl, ?_, ?_⟩
  · show (c.bits ++ 0b100#3 ++ BitVec.ofBool p ++ BitVec.ofBool u ++ 0b0#1 ++ BitVec.ofBool w ++ 0b0#1 ++ rn ++ list &&&
      (0#4 ++ 7#3 ++ 0#1 ++ 0#1 ++ 1#1 ++ 0#1 ++ 1#1 ++ 0#4 ++ 0#16) == 0#4 ++ 0b100#3 ++ 0#1 ++ 0#1 ++ 0b0#1 ++ 0#1 ++ 0b0#1 ++ 0#4 ++ 0#16) = true
    simp only [BitVec.and_append, BitVec.and_zero, BitVec.reduceAnd, beq_self_eq_true]
  · simp only [condAt, shiftAt, HAppend.hAppend, append_extract_lo, append_extract_hi, append_bit_lo, append_bit_hi,
      BitVec.extractLsb'_eq_self, Nat.reduceAdd, Nat.reduceLeDiff, Nat.reduceSub, Nat.reduceLT,
      Cond.ofBits_bits, Shift.ofBits_bits, ofBool_bit]

theorem ldmUsr (c p u w rn list) : Statement (.ldmUsr c p u w rn list) := by
  refine fun _ => ⟨95, _, rfl, ?_, ?_⟩
  · show (c.bits ++ 0b100#3 ++ BitVec.ofBool p ++ BitVec.ofBool u ++ 0b1#1 ++ BitVec.ofBool w ++ 0b1#1 ++ rn ++ 0b0#1 ++ list &&&
      (0#4 ++ 7#3 ++ 0#1 ++ 0#1 ++ 1#1 ++ 0#1 ++ 1#1 ++ 0#4 ++ 1#1 ++ 0#15) == 0#4 ++ 0b100#3 ++ 0#1 ++ 0#1 ++ 0b1#1 ++ 0#1 ++ 0b1#1 ++ 0#4 ++ 0b0#1 ++ 0#15) = true
    simp only [BitVec.and_append, BitVec.and_zero, BitVec.reduceAnd, beq_self_eq_true]
  · simp only [condAt, shiftAt, HAppend.hAppend, append_extract_lo, append_extract_hi, append_bit_lo, append_bit_hi,
      BitVec.extractLsb'_eq_self, Nat.reduceAdd, Nat.reduceLeDiff, Nat.reduceSub, Nat.reduceLT,
      Cond.ofBits_bits, Shift.ofBits_bits, ofBool_bit]

theorem ldmRet (c p u w rn list) : Statement (.ldmRet c p u w rn list) := by
  refine fun _ => ⟨96, _, rfl, ?_, ?_⟩
  · show (c.bits ++ 0b100#3 ++ BitVec.ofBool p ++ BitVec.ofBool u ++ 0b1#1 ++ BitVec.ofBool w ++ 0b1#1 ++ rn ++ 0b1#1 ++ list &&&
      (0#4 ++ 7#3 ++ 0#1 ++ 0#1 ++ 1#1 ++ 0#1 ++ 1#1 ++ 0#4 ++ 1#1 ++ 0#15) == 0#4 ++ 0b100#3 ++ 0#1 ++ 0#1 ++ 0b1#1 ++ 0#1 ++ 0b1#1 ++ 0#4 ++ 0b1#1 ++ 0#15) = true
    simp only [BitVec.and_append, BitVec.and_zero, BitVec.reduceAnd, beq_self_eq_true]
  · simp only [condAt, shiftAt, HAppend.hAppend, append_extract_lo, append_extract_hi, append_bit_lo, append_bit_hi,
      BitVec.extractLsb'_eq_self, Nat.reduceAdd, Nat.reduceLeDiff, Nat.reduceSub, Nat.reduceLT,
      Cond.ofBits_bits, Shift.ofBits_bits, ofBool_bit]

theorem stmUsr (c p u w rn list) : Statement (.stmUsr c p u w rn list) := by
  refine fun _ => ⟨97, _, rfl, ?_, ?_⟩
  · show (c.bits ++ 0b100#3 ++ BitVec.ofBool p ++ BitVec.ofBool u ++ 0b1#1 ++ BitVec.ofBool w ++ 0b0#1 ++ rn ++ list &&&
      (0#4 ++ 7#3 ++ 0#1 ++ 0#1 ++ 1#1 ++ 0#1 ++ 1#1 ++ 0#4 ++ 0#16) == 0#4 ++ 0b100#3 ++ 0#1 ++ 0#1 ++ 0b1#1 ++ 0#1 ++ 0b0#1 ++ 0#4 ++ 0#16) = true
    simp only [BitVec.and_append, BitVec.and_zero, BitVec.reduceAnd, beq_self_eq_true]
  · simp only [condAt, shiftAt, HAppend.hAppend, append_extract_lo, append_extract_hi, append_bit_lo, append_bit_hi,
      BitVec.extractLsb'_eq_self, Nat.reduceAdd, Nat.reduceLeDiff, Nat.reduceSub, Nat.reduceLT,
      Cond.ofBits_bits, Shift.ofBits_bits, ofBool_bit]

theorem b (c off) : Statement (.b c off) := by
  refine fun _ => ⟨98, _, rfl, ?_, ?_⟩
  · show (c.bits ++ 0b1010#4 ++ off &&&
      (0#4 ++ 15#4 ++ 0#24) == 0#4 ++ 0b1010#4 ++ 0#24) = true
    simp only [BitVec.and_append, BitVec.and_zero, BitVec.reduceAnd, beq_self_eq_true]
  · simp only [condAt, shiftAt, HAppend.hAppend, append_extract_lo, append_extract_hi, append_bit_lo, append_bit_hi,
      BitVec.extractLsb'_eq_self, Nat.reduceAdd, Nat.reduceLeDiff, Nat.reduceSub, Nat.reduceLT,
      Cond.ofBits_bits, Shift.ofBits_bits, ofBool_bit]

theorem bl (c off) : Statement (.bl c off) := by
  refine fun _ => ⟨99, _, rfl, ?_, ?_⟩
  · show (c.bits ++ 0b1011#4 ++ off &&&
      (0#4 ++ 15#4 ++ 0#24) == 0#4 ++ 0b1011#4 ++ 0#24) = true
    simp only [BitVec.and_append, BitVec.and_zero, BitVec.reduceAnd, beq_self_eq_true]
  · simp only [condAt, shiftAt, HAppend.hAppend, append_extract_lo, append_extract_hi, append_bit_lo, append_bit_hi,
      BitVec.extractLsb'_eq_self, Nat.reduceAdd, Nat.reduceLeDiff, Nat.reduceSub, Nat.reduceLT,
      Cond.ofBits_bits, Shift.ofBits_bits, ofBool_bit]

theorem ldc (c p u n w rn crd cp off8) : Statement (.ldc c p u n w rn crd cp off8) := by
  refine fun _ => ⟨100, _, rfl, ?_, ?_⟩
  · show (c.bits ++ 0b110#3 ++ BitVec.ofBool p ++ BitVec.ofBool u ++ BitVec.ofBool n ++ BitVec.ofBool w ++ 0b1#1 ++ rn ++ crd ++ cp ++ off8 &&&
      (0#4 ++ 7#3 ++ 0#1 ++ 0#1 ++ 0#1 ++ 0#1 ++ 1#1 ++ 0#4 ++ 0#4 ++ 0#4 ++ 0#8) == 0#4 ++ 0b110#3 ++ 0#1 ++ 0#1 ++ 0#1 ++ 0#1 ++ 0b1#1 ++ 0#4 ++ 0#4 ++ 0#4 ++ 0#8) = true
    simp only [BitVec.and_append, BitVec.and_zero, BitVec.reduceAnd, beq_self_eq_true]
  · simp only [condAt, shiftAt, HAppend.hAppend, append_extract_lo, append_extract_hi, append_bit_lo, append_bit_hi,
      BitVec.extractLsb'_eq_self, Nat.reduceAdd, Nat.reduceLeDiff, Nat.reduceSub, Nat.reduceLT,
      Cond.ofBits_bits, Shift.ofBits_bits, ofBool_bit]

theorem stc (c p u n w rn crd cp off8) : Statement (.stc c p u n w rn crd cp off8) := by
  refine fun _ => ⟨101, _, rfl, ?_, ?_⟩
  · show (c.bits ++ 0b110#3 ++ BitVec.ofBool p ++ BitVec.ofBool u ++ BitVec.ofBool n ++ BitVec.ofBool w ++ 0b0#1 ++ rn ++ crd ++ cp ++ off8 &&&
      (0#4 ++ 7#3 ++ 0#1 ++ 0#1 ++ 0#1 ++ 0#1 ++ 1#1 ++ 0#4 ++ 0#4 ++ 0#4 ++ 0#8) == 0#4 ++ 0b110#3 ++ 0#1 ++ 0#1 ++ 0#1 ++ 0#1 ++ 0b0#1 ++ 0#4 ++ 0#4 ++ 0#4 ++ 0#8) = true
    simp only [BitVec.and_append, BitVec.and_zero, BitVec.reduceAnd, beq_self_eq_true]
  · simp only [condAt, shiftAt, HAppend.hAppend, append_extract_lo, append_extract_hi, append_bit_lo, append_bit_hi,
      BitVec.extractLsb'_eq_self, Nat.reduceAdd, Nat.reduceLeDiff, Nat.reduceSub, Nat.reduceLT,
      Cond.ofBits_bits, Shift.ofBits_bits, ofBool_bit]

theorem cdp (c op1 crn crd cp op2 crm) : Statement (.cdp c op1 crn crd cp op2 crm) := by
  refine fun _ => ⟨102, _, rfl, ?_, ?_⟩
  · show (c.bits ++ 0b1110#4 ++ op1 ++ crn ++ crd ++ cp ++ op2 ++ 0b0#1 ++ crm &&&
      (0#4 ++ 15#4 ++ 0#4 ++ 0#4 ++ 0#4 ++ 0#4 ++ 0#3 ++ 1#1 ++ 0#4) == 0#4 ++ 0b1110#4 ++ 0#4 ++ 0#4 ++ 0#4 ++ 0#4 ++ 0#3 ++ 0b0#1 ++ 0#4) = true
    simp only [BitVec.and_append, BitVec.and_zero, BitVec.reduceAnd, beq_self_eq_true]
  · simp only [condAt, shiftAt, HAppend.hAppend, append_extract_lo, append_extract_hi, append_bit_lo, append_bit_hi,
      BitVec.extractLsb'_eq_self, Nat.reduceAdd, Nat.reduceLeDiff, Nat.reduceSub, Nat.reduceLT,
      Cond.ofBits_bits, Shift.ofBits_bits, ofBool_bit]

theorem mcr (c op1 crn rd cp op2 crm) : Statement (.mcr c op1 crn rd cp op2 crm) := by
  refine fun _ => ⟨103, _, rfl, ?_, ?_⟩
  · show (c.bits ++ 0b1110#4 ++ op1 ++ 0b0#1 ++ crn ++ rd ++ cp ++ op2 ++ 0b1#1 ++ crm &&&
      (0#4 ++ 15#4 ++ 0#3 ++ 1#1 ++ 0#4 ++ 0#4 ++ 0#4 ++ 0#3 ++ 1#1 ++ 0#4) == 0#4 ++ 0b1110#4 ++ 0#3 ++ 0b0#1 ++ 0#4 ++ 0#4 ++ 0#4 ++ 0#3 ++ 0b1#1 ++ 0#4) = true
    simp only [BitVec.and_append, BitVec.and_zero, BitVec.reduceAnd, beq_self_eq_true]
  · simp only [condAt, shiftAt, HAppend.hAppend, append_extract_lo, append_extract_hi, append_bit_lo, append_bit_hi,
      BitVec.extractLsb'_eq_self, Nat.reduceAdd, Nat.reduceLeDiff, Nat.reduceSub, Nat.reduceLT,
      Cond.ofBits_bits, Shift.ofBits_bits, ofBool_bit]

theorem mrc (c op1 crn rd cp op2 crm) : Statement (.mrc c op1 crn rd cp op2 crm) := by
  refine fun _ => ⟨104, _, rfl, ?_, ?_⟩
  · show (c.bits ++ 0b1110#4 ++ op1 ++ 0b1#1 ++ crn ++ rd ++ cp ++ op2 ++ 0b1#1 ++ crm &&&
      (0#4 ++ 15#4 ++ 0#3 ++ 1#1 ++ 0#4 ++ 0#4 ++ 0#4 ++ 0#3 ++ 1#1 ++ 0#4) == 0#4 ++ 0b1110#4 ++ 0#3 ++ 0b1#1 ++ 0#4 ++ 0#4 ++ 0#4 ++ 0#3 ++ 0b1#1 ++ 0#4) = true
    simp only [BitVec.and_append, BitVec.and_zero, BitVec.reduceAnd, beq_self_eq_true]
  · simp only [condAt, shiftAt, HAppend.hAppend, append_extract_lo, append_extract_hi, append_bit_lo, append_bit_hi,
      BitVec.extractLsb'_eq_self, Nat.reduceAdd, Nat.reduceLeDiff, Nat.reduceSub, Nat.reduceLT,
      Cond.ofBits_bits, Shift.ofBits_bits, ofBool_bit]

theorem swi (c comment) : Statement (.swi c comment) := by
  refine fun _ => ⟨105, _, rfl, ?_, ?_⟩
  · show (c.bits ++ 0b1111#4 ++ comment &&&
      (0#4 ++ 15#4 ++ 0#24) == 0#4 ++ 0b1111#4 ++ 0#24) = true
    simp only [BitVec.and_append, BitVec.and_zero, BitVec.reduceAnd, beq_self_eq_true]
  · simp only [condAt, shiftAt, HAppend.hAppend, append_extract_lo, append_extract_hi, append_bit_lo, append_bit_hi,
      BitVec.extractLsb'_eq_self, Nat.reduceAdd, Nat.reduceLeDiff, Nat.reduceSub, Nat.reduceLT,
      Cond.ofBits_bits, Shift.ofBits_bits, ofBool_bit]

theorem tLslImm (off5 rs rd) : Statement (.tLslImm off5 rs rd) := by
  refine fun _ => ⟨0, _, rfl, ?_, ?_⟩
  · show (0b00000#5 ++ off5 ++ rs ++ rd &&&
      (31#5 ++ 0#5 ++ 0#3 ++ 0#3) == 0b00000#5 ++ 0#5 ++ 0#3 ++ 0#3) = true
    simp only [BitVec.and_append, BitVec.and_zero, BitVec.reduceAnd, beq_self_eq_true]
  · simp only [condAt, shiftAt, HAppend.hAppend, append_extract_lo, append_extract_hi, append_bit_lo, append_bit_hi,
      BitVec.extractLsb'_eq_self, Nat.reduceAdd, Nat.reduceLeDiff, Nat.reduceSub, Nat.reduceLT,
      Cond.ofBits_bits, Shift.ofBits_bits, ofBool_bit]

theorem tLsrImm (off5 rs rd) : Statement (.tLsrImm off5 rs rd) := by
  refine fun _ => ⟨1, _, rfl, ?_, ?_⟩
  · show (0b00001#5 ++ off5 ++ rs ++ rd &&&
      (31#5 ++ 0#5 ++ 0#3 ++ 0#3) == 0b00001#5 ++ 0#5 ++ 0#3 ++ 0#3) = true
    simp only [BitVec.and_append, BitVec.and_zero, BitVec.reduceAnd, beq_self_eq_true]
  · simp only [condAt, shiftAt, HAppend.hAppend, append_extract_lo, append_extract_hi, append_bit_lo, append_bit_hi,
      BitVec.extractLsb'_eq_self, Nat.reduceAdd, Nat.reduceLeDiff, Nat.reduceSub, Nat.reduceLT,
      Cond.ofBits_bits, Shift.ofBits_bits, ofBool_bit]

theorem tAsrImm (off5 rs rd) : Statement (.tAsrImm off5 rs rd) := by
  refine fun _ => ⟨2, _, rfl, ?_, ?_⟩
  · show (0b00010#5 ++ off5 ++ rs ++ rd &&&
      (31#5 ++ 0#5 ++ 0#3 ++ 0#3) == 0b00010#5 ++ 0#5 ++ 0#3 ++ 0#3) = true
    simp only [BitVec.and_append, BitVec.and_zero, BitVec.reduceAnd, beq_self_eq_true]
  · simp only [condAt, shiftAt, HAppend.hAppend, append_extract_lo, append_extract_hi, append_bit_lo, append_bit_hi,
      BitVec.extractLsb'_eq_self, Nat.reduceAdd, Nat.reduceLeDiff, Nat.reduceSub, Nat.reduceLT,
      Cond.ofBits_bits, Shift.ofBits_bits, ofBool_bit]

theorem tAddReg (rn rs rd) : Statement (.tAddReg rn rs rd) := by
  refine fun _ => ⟨3, _, rfl, ?_, ?_⟩
  · show (0b0001100#7 ++ rn ++ rs ++ rd &&&
      (127#7 ++ 0#3 ++ 0#3 ++ 0#3) == 0b0001100#7 ++ 0#3 ++ 0#3 ++ 0#3) = true
    simp only [BitVec.and_append, BitVec.and_zero, BitVec.reduceAnd, beq_self_eq_true]
  · simp only [condAt, shiftAt, HAppend.hAppend, append_extract_lo, append_extract_hi, append_bit_lo, append_bit_hi,
      BitVec.extractLsb'_eq_self, Nat.reduceAdd, Nat.reduceLeDiff, Nat.reduceSub, Nat.reduceLT,
      Cond.ofBits_bits, Shift.ofBits_bits, ofBool_bit]

theorem tSubReg (rn rs rd) : Statement (.tSubReg rn rs rd) := by
  refine fun _ => ⟨4, _, rfl, ?_, ?_⟩
  · show (0b0001101#7 ++ rn ++ rs ++ rd &&&
      (127#7 ++ 0#3 ++ 0#3 ++ 0#3) == 0b0001101#7 ++ 0#3 ++ 0#3 ++ 0#3) = true
    simp only [BitVec.and_append, BitVec.and_zero, BitVec.reduceAnd, beq_self_eq_true]
  · simp only [condAt, shiftAt, HAppend.hAppend, append_extract_lo, append_extract_hi, append_bit_lo, append_bit_hi,
      BitVec.extractLsb'_eq_self, Nat.reduceAdd, Nat.reduceLeDiff, Nat.reduceSub, Nat.reduceLT,
      Cond.ofBits_bits, Shift.ofBits_bits, ofBool_bit]

theorem tAddImm3 (imm3 rs rd) : Statement (.tAddImm3 imm3 rs rd) := by
  refine fun _ => ⟨5, _, rfl, ?_, ?_⟩
  · show (0b0001110#7 ++ imm3 ++ rs ++ rd &&&
      (127#7 ++ 0#3 ++ 0#3 ++ 0#3) == 0b0001110#7 ++ 0#3 ++ 0#3 ++ 0#3) = true
    simp only [BitVec.and_append, BitVec.and_zero, BitVec.reduceAnd, beq_self_eq_true]
  · simp only [condAt, shiftAt, HAppend.hAppend, append_extract_lo, append_extract_hi, append_bit_lo, append_bit_hi,
      BitVec.extractLsb'_eq_self, Nat.reduceAdd, Nat.reduceLeDiff, Nat.reduceSub, Nat.reduceLT,
      Cond.ofBits_bits, Shift.ofBits_bits, ofBool_bit]

theorem tSubImm3 (imm3 rs rd) : Statement (.tSubImm3 imm3 rs rd) := by
  refine fun _ => ⟨6, _, rfl, ?_, ?_⟩
  · show (0b0001111#7 ++ imm3 ++ rs ++ rd &&&
      (127#7 ++ 0#3 ++ 0#3 ++ 0#3) == 0b0001111#7 ++ 0#3 ++ 0#3 ++ 0#3) = true
    simp only [BitVec.and_append, BitVec.and_zero, BitVec.reduceAnd, beq_self_eq_true]
  · simp only [condAt, shiftAt, HAppend.hAppend, append_extract_lo, append_extract_hi, append_bit_lo, append_bit_hi,
      BitVec.extractLsb'_eq_self, Nat.reduceAdd, Nat.reduceLeDiff, Nat.reduceSub, Nat.reduceLT,
      Cond.ofBits_bits, Shift.ofBits_bits, ofBool_bit]

theorem tMovImm (rd imm8) : Statement (.tMovImm rd imm8) := by
  refine fun _ => ⟨7, _, rfl, ?_, ?_⟩
  · show (0b00100#5 ++ rd ++ imm8 &&&
      (31#5 ++ 0#3 ++ 0#8) == 0b00100#5 ++ 0#3 ++ 0#8) = true
    simp only [BitVec.and_append, BitVec.and_zero, BitVec.reduceAnd, beq_self_eq_true]
  · simp only [condAt, shiftAt, HAppend.hAppend, append_extract_lo, append_extract_hi, append_bit_lo, append_bit_hi,
      BitVec.extractLsb'_eq_self, Nat.reduceAdd, Nat.reduceLeDiff, Nat.reduceSub, Nat.reduceLT,
      Cond.ofBits_bits, Shift.ofBits_bits, ofBool_bit]

theorem tCmpImm (rd imm8) : Statement (.tCmpImm rd imm8) := by
  refine fun _ => ⟨8, _, rfl, ?_, ?_⟩
  · show (0b00101#5 ++ rd ++ imm8 &&&
      (31#5 ++ 0#3 ++ 0#8) == 0b00101#5 ++ 0#3 ++ 0#8) = true
    simp only [BitVec.and_append, BitVec.and_zero, BitVec.reduceAnd, beq_self_eq_true]
  · simp only [condAt, shiftAt, HAppend.hAppend, append_extract_lo, append_extract_hi, append_bit_lo, append_bit_hi,
      BitVec.extractLsb'_eq_self, Nat.reduceAdd, Nat.reduceLeDiff, Nat.reduceSub, Nat.reduceLT,
      Cond.ofBits_bits, Shift.ofBits_bits, ofBool_bit]

theorem tAddImm8 (rd imm8) : Statement (.tAddImm8 rd imm8) := by
  refine fun _ => ⟨9, _, rfl, ?_, ?_⟩
  · show (0b00110#5 ++ rd ++ imm8 &&&
      (31#5 ++ 0#3 ++ 0#8) == 0b00110#5 ++ 0#3 ++ 0#8) = true
    simp only [BitVec.and_append, BitVec.and_zero, BitVec.reduceAnd, beq_self_eq_true]
  · simp only [condAt, shiftAt, HAppend.hAppend, append_extract_lo, append_extract_hi, append_bit_lo, append_bit_hi,
      BitVec.extractLsb'_eq_self, Nat.reduceAdd, Nat.reduceLeDiff, Nat.reduceSub, Nat.reduceLT,
      Cond.ofBits_bits, Shift.ofBits_bits, ofBool_bit]

theorem tSubImm8 (rd imm8) : Statement (.tSubImm8 rd imm8) := by
  refine fun _ => ⟨10, _, rfl, ?_, ?_⟩
  · show (0b00111#5 ++ rd ++ imm8 &&&
      (31#5 ++ 0#3 ++ 0#8) == 0b00111#5 ++ 0#3 ++ 0#8) = true
    simp only [BitVec.and_append, BitVec.and_zero, BitVec.reduceAnd, beq_self_eq_true]
  · simp only [condAt, shiftAt, HAppend.hAppend, append_extract_lo, append_extract_hi, append_bit_lo, append_bit_hi,
      BitVec.extractLsb'_eq_self, Nat.reduceAdd, Nat.reduceLeDiff, Nat.reduceSub, Nat.reduceLT,
      Cond.ofBits_bits, Shift.ofBits_bits, ofBool_bit]

theorem tAnd (rs rd) : Statement (.tAnd rs rd) := by
  refine fun _ => ⟨11, _, rfl, ?_, ?_⟩
  · show (0b0100000000#10 ++ rs ++ rd &&&
      (1023#10 ++ 0#3 ++ 0#3) == 0b0100000000#10 ++ 0#3 ++ 0#3) = true
    simp only [BitVec.and_append, BitVec.and_zero, BitVec.reduceAnd, beq_self_eq_true]
  · simp only [condAt, shiftAt, HAppend.hAppend, append_extract_lo, append_extract_hi, append_bit_lo, append_bit_hi,
      BitVec.extractLsb'_eq_self, Nat.reduceAdd, Nat.reduceLeDiff, Nat.reduceSub, Nat.reduceLT,
      Cond.ofBits_bits, Shift.ofBits_bits, ofBool_bit]

theorem tEor (rs rd) : Statement (.tEor rs rd) := by
  refine fun _ => ⟨12, _, rfl, ?_, ?_⟩
  · show (0b0100000001#10 ++ rs ++ rd &&&
      (1023#10 ++ 0#3 ++ 0#3) == 0b0100000001#10 ++ 0#3 ++ 0#3) = true
    simp only [BitVec.and_append, BitVec.and_zero, BitVec.reduceAnd, beq_self_eq_true]
  · simp only [condAt, shiftAt, HAppend.hAppend, append_extract_lo, append_extract_hi, append_bit_lo, append_bit_hi,
      BitVec.extractLsb'_eq_self, Nat.reduceAdd, Nat.reduceLeDiff, Nat.reduceSub, Nat.reduceLT,
      Cond.ofBits_bits, Shift.ofBits_bits, ofBool_bit]

theorem tLslReg (rs rd) : Statement (.tLslReg rs rd) := by
  refine fun _ => ⟨13, _, rfl, ?_, ?_⟩
  · show (0b0100000010#10 ++ rs ++ rd &&&
      (1023#10 ++ 0#3 ++ 0#3) == 0b0100000010#10 ++ 0#3 ++ 0#3) = true
    simp only [BitVec.and_append, BitVec.and_zero, BitVec.reduceAnd, beq_self_eq_true]
  · simp only [condAt, shiftAt, HAppend.hAppend, append_extract_lo, append_extract_hi, append_bit_lo, append_bit_hi,
      BitVec.extractLsb'_eq_self, Nat.reduceAdd, Nat.reduceLeDiff, Nat.reduceSub, Nat.reduceLT,
      Cond.ofBits_bits, Shift.ofBits_bits, ofBool_bit]

theorem tLsrReg (rs rd) : Statement (.tLsrReg rs rd) := by
  refine fun _ => ⟨14, _, rfl, ?_, ?_⟩
  · show (0b0100000011#10 ++ rs ++ rd &&&
      (1023#10 ++ 0#3 ++ 0#3) == 0b0100000011#10 ++ 0#3 ++ 0#3) = true
    simp only [BitVec.and_append, BitVec.and_zero, BitVec.reduceAnd, beq_self_eq_true]
  · simp only [condAt, shiftAt, HAppend.hAppend, append_extract_lo, append_extract_hi, append_bit_lo, append_bit_hi,
      BitVec.extractLsb'_eq_self, Nat.reduceAdd, Nat.reduceLeDiff, Nat.reduceSub, Nat.reduceLT,
      Cond.ofBits_bits, Shift.ofBits_bits, ofBool_bit]

theorem tAsrReg (rs rd) : Statement (.tAsrReg rs rd) := by
  refine fun _ => ⟨15, _, rfl, ?_, ?_⟩
  · show (0b0100000100#10 ++ rs ++ rd &&&
      (1023#10 ++ 0#3 ++ 0#3) == 0b0100000100#10 ++ 0#3 ++ 0#3) = true
    simp only [BitVec.and_append, BitVec.and_zero, BitVec.reduceAnd, beq_self_eq_true]
  · simp only [condAt, shiftAt, HAppend.hAppend, append_extract_lo, append_extract_hi, append_bit_lo, append_bit_hi,
      BitVec.extractLsb'_eq_self, Nat.reduceAdd, Nat.reduceLeDiff, Nat.reduceSub, Nat.reduceLT,
      Cond.ofBits_bits, Shift.ofBits_bits, ofBool_bit]

theorem tAdc (rs rd) : Statement (.tAdc rs rd) := by
  refine fun _ => ⟨16, _, rfl, ?_, ?_⟩
  · show (0b0100000101#10 ++ rs ++ rd &&&
      (1023#10 ++ 0#3 ++ 0#3) == 0b0100000101#10 ++ 0#3 ++ 0#3) = true
    simp only [BitVec.and_append, BitVec.and_zero, BitVec.reduceAnd, beq_self_eq_true]
  · simp only [condAt, shiftAt, HAppend.hAppend, append_extract_lo, append_extract_hi, append_bit_lo, append_bit_hi,
      BitVec.extractLsb'_eq_self, Nat.reduceAdd, Nat.reduceLeDiff, Nat.reduceSub, Nat.reduceLT,
      Cond.ofBits_bits, Shift.ofBits_bits, ofBool_bit]

theorem tSbc (rs rd) : Statement (.tSbc rs rd) := by
  refine fun _ => ⟨17, _, rfl, ?_, ?_⟩
  · show (0b0100000110#10 ++ rs ++ rd &&&
      (1023#10 ++ 0#3 ++ 0#3) == 0b0100000110#10 ++ 0#3 ++ 0#3) = true
    simp only [BitVec.and_append, BitVec.and_zero, BitVec.reduceAnd, beq_self_eq_true]
  · simp only [condAt, shiftAt, HAppend.hAppend, append_extract_lo, append_extract_hi, append_bit_lo, append_bit_hi,
      BitVec.extractLsb'_eq_self, Nat.reduceAdd, Nat.reduceLeDiff, Nat.reduceSub, Nat.reduceLT,
      Cond.ofBits_bits, Shift.ofBits_bits, ofBool_bit]

theorem tRor (rs rd) : Statement (.tRor rs rd) := by
  refine fun _ => ⟨18, _, rfl, ?_, ?_⟩
  · show (0b0100000111#10 ++ rs ++ rd &&&
      (1023#10 ++ 0#3 ++ 0#3) == 0b0100000111#10 ++ 0#3 ++ 0#3) = true
    simp only [BitVec.and_append, BitVec.and_zero, BitVec.reduceAnd, beq_self_eq_true]
  · simp only [condAt, shiftAt, HAppend.hAppend, append_extract_lo, append_extract_hi, append_bit_lo, append_bit_hi,
      BitVec.extractLsb'_eq_self, Nat.reduceAdd, Nat.reduceLeDiff, Nat.reduceSub, Nat.reduceLT,
      Cond.ofBits_bits, Shift.ofBits_bits, ofBool_bit]

theorem tTst (rs rd) : Statement (.tTst rs rd) := by
  refine fun _ => ⟨19, _, rfl, ?_, ?_⟩
  · show (0b0100001000#10 ++ rs ++ rd &&&
      (1023#10 ++ 0#3 ++ 0#3) == 0b0100001000#10 ++ 0#3 ++ 0#3) = true
    simp only [BitVec.and_append, BitVec.and_zero, BitVec.reduceAnd, beq_self_eq_true]
  · simp only [condAt, shiftAt, HAppend.hAppend, append_extract_lo, append_extract_hi, append_bit_lo, append_bit_hi,
      BitVec.extractLsb'_eq_self, Nat.reduceAdd, Nat.reduceLeDiff, Nat.reduceSub, Nat.reduceLT,
      Cond.ofBits_bits, Shift.ofBits_bits, ofBool_bit]

theorem tNeg (rs rd) : Statement (.tNeg rs rd) := by
  refine fun _ => ⟨20, _, rfl, ?_, ?_⟩
  · show (0b0100001001#10 ++ rs ++ rd &&&
      (1023#10 ++ 0#3 ++ 0#3) == 0b0100001001#10 ++ 0#3 ++ 0#3) = true
    simp only [BitVec.and_append, BitVec.and_zero, BitVec.reduceAnd, beq_self_eq_true]
  · simp only [condAt, shiftAt, HAppend.hAppend, append_extract_lo, append_extract_hi, append_bit_lo, append_bit_hi,
      BitVec.extractLsb'_eq_self, Nat.reduceAdd, Nat.reduceLeDiff, Nat.reduceSub, Nat.reduceLT,
      Cond.ofBits_bits, Shift.ofBits_bits, ofBool_bit]

theorem tCmpReg (rs rd) : Statement (.tCmpReg rs rd) := by
  refine fun _ => ⟨21, _, rfl, ?_, ?_⟩
  · show (0b0100001010#10 ++ rs ++ rd &&&
      (1023#10 ++ 0#3 ++ 0#3) == 0b0100001010#10 ++ 0#3 ++ 0#3) = true
    simp only [BitVec.and_append, BitVec.and_zero, BitVec.reduceAnd, beq_self_eq_true]
  · simp only [condAt, shiftAt, HAppend.hAppend, append_extract_lo, append_extract_hi, append_bit_lo, append_bit_hi,
      BitVec.extractLsb'_eq_self, Nat.reduceAdd, Nat.reduceLeDiff, Nat.reduceSub, Nat.reduceLT,
      Cond.ofBits_bits, Shift.ofBits_bits, ofBool_bit]

theorem tCmn (rs rd) : Statement (.tCmn rs rd) := by
  refine fun _ => ⟨22, _, rfl, ?_, ?_⟩
  · show (0b0100001011#10 ++ rs ++ rd &&&
      (1023#10 ++ 0#3 ++ 0#3) == 0b0100001011#10 ++ 0#3 ++ 0#3) = true
    simp only [BitVec.and_append, BitVec.and_zero, BitVec.reduceAnd, beq_self_eq_true]
  · simp only [condAt, shiftAt, HAppend.hAppend, append_extract_lo, append_extract_hi, append_bit_lo, append_bit_hi,
      BitVec.extractLsb'_eq_self, Nat.reduceAdd, Nat.reduceLeDiff, Nat.reduceSub, Nat.reduceLT,
      Cond.ofBits_bits, Shift.ofBits_bits, ofBool_bit]

theorem tOrr (rs rd) : Statement (.tOrr rs rd) := by
  refine fun _ => ⟨23, _, rfl, ?_, ?_⟩
  · show (0b0100001100#10 ++ rs ++ rd &&&
      (1023#10 ++ 0#3 ++ 0#3) == 0b0100001100#10 ++ 0#3 ++ 0#3) = true
    simp only [BitVec.and_append, BitVec.and_zero, BitVec.reduceAnd, beq_self_eq_true]
  · simp only [condAt, shiftAt, HAppend.hAppend, append_extract_lo, append_extract_hi, append_bit_lo, append_bit_hi,
      BitVec.extractLsb'_eq_self, Nat.reduceAdd, Nat.reduceLeDiff, Nat.reduceSub, Nat.reduceLT,
      Cond.ofBits_bits, Shift.ofBits_bits, ofBool_bit]

theorem tMul (rs rd) : Statement (.tMul rs rd) := by
  refine fun _ => ⟨24, _, rfl, ?_, ?_⟩
  · show (0b0100001101#10 ++ rs ++ rd &&&
      (1023#10 ++ 0#3 ++ 0#3) == 0b0100001101#10 ++ 0#3 ++ 0#3) = true
    simp only [BitVec.and_append, BitVec.and_zero, BitVec.reduceAnd, beq_self_eq_true]
  · simp only [condAt, shiftAt, HAppend.hAppend, append_extract_lo, append_extract_hi, append_bit_lo, append_bit_hi,
      BitVec.extractLsb'_eq_self, Nat.reduceAdd, Nat.reduceLeDiff, Nat.reduceSub, Nat.reduceLT,
      Cond.ofBits_bits, Shift.ofBits_bits, ofBool_bit]

theorem tBic (rs rd) : Statement (.tBic rs rd) := by
  refine fun _ => ⟨25, _, rfl, ?_, ?_⟩
  · show (0b0100001110#10 ++ rs ++ rd &&&
      (1023#10 ++ 0#3 ++ 0#3) == 0b0100001110#10 ++ 0#3 ++ 0#3) = true
    simp only [BitVec.and_append, BitVec.and_zero, BitVec.reduceAnd, beq_self_eq_true]
  · simp only [condAt, shiftAt, HAppend.hAppend, append_extract_lo, append_extract_hi, append_bit_lo, append_bit_hi,
      BitVec.extractLsb'_eq_self, Nat.reduceAdd, Nat.reduceLeDiff, Nat.reduceSub, Nat.reduceLT,
      Cond.ofBits_bits, Shift.ofBits_bits, ofBool_bit]

theorem tMvn (rs rd) : Statement (.tMvn rs rd) := by
  refine fun _ => ⟨26, _, rfl, ?_, ?_⟩
  · show (0b0100001111#10 ++ rs ++ rd &&&
      (1023#10 ++ 0#3 ++ 0#3) == 0b0100001111#10 ++ 0#3 ++ 0#3) = true
    simp only [BitVec.and_append, BitVec.and_zero, BitVec.reduceAnd, beq_self_eq_true]
  · simp only [condAt, shiftAt, HAppend.hAppend, append_extract_lo, append_extract_hi, append_bit_lo, append_bit_hi,
      BitVec.extractLsb'_eq_self, Nat.reduceAdd, Nat.reduceLeDiff, Nat.reduceSub, Nat.reduceLT,
      Cond.ofBits_bits, Shift.ofBits_bits, ofBool_bit]

theorem tAddHi (h1 h2 rs rd) : Statement (.tAddHi h1 h2 rs rd) := by
  refine fun _ => ⟨27, _, rfl, ?_, ?_⟩
  · show (0b01000100#8 ++ BitVec.ofBool h1 ++ BitVec.ofBool h2 ++ rs ++ rd &&&
      (255#8 ++ 0#1 ++ 0#1 ++ 0#3 ++ 0#3) == 0b01000100#8 ++ 0#1 ++ 0#1 ++ 0#3 ++ 0#3) = true
    simp only [BitVec.and_append, BitVec.and_zero, BitVec.reduceAnd, beq_self_eq_true]
  · simp only [condAt, shiftAt, HAppend.hAppend, append_extract_lo, append_extract_hi, append_bit_lo, append_bit_hi,
      BitVec.extractLsb'_eq_self, Nat.reduceAdd, Nat.reduceLeDiff, Nat.reduceSub, Nat.reduceLT,
      Cond.ofBits_bits, Shift.ofBits_bits, ofBool_bit]

theorem tCmpHi (h1 h2 rs rd) : Statement (.tCmpHi h1 h2 rs rd) := by
  refine fun _ => ⟨28, _, rfl, ?_, ?_⟩
  · show (0b01000101#8 ++ BitVec.ofBool h1 ++ BitVec.ofBool h2 ++ rs ++ rd &&&
      (255#8 ++ 0#1 ++ 0#1 ++ 0#3 ++ 0#3) == 0b01000101#8 ++ 0#1 ++ 0#1 ++ 0#3 ++ 0#3) = true
    simp only [BitVec.and_append, BitVec.and_zero, BitVec.reduceAnd, beq_self_eq_true]
  · simp only [condAt, shiftAt, HAppend.hAppend, append_extract_lo, append_extract_hi, append_bit_lo, append_bit_hi,
      BitVec.extractLsb'_eq_self, Nat.reduceAdd, Nat.reduceLeDiff, Nat.reduceSub, Nat.reduceLT,
      Cond.ofBits_bits, Shift.ofBits_bits, ofBool_bit]

theorem tMovHi (h1 h2 rs rd) : Statement (.tMovHi h1 h2 rs rd) := by
  refine fun _ => ⟨29, _, rfl, ?_, ?_⟩
  · show (0b01000110#8 ++ BitVec.ofBool h1 ++ BitVec.ofBool h2 ++ rs ++ rd &&&
      (255#8 ++ 0#1 ++ 0#1 ++ 0#3 ++ 0#3) == 0b01000110#8 ++ 0#1 ++ 0#1 ++ 0#3 ++ 0#3) = true
    simp only [BitVec.and_append, BitVec.and_zero, BitVec.reduceAnd, beq_self_eq_true]
  · simp only [condAt, shiftAt, HAppend.hAppend, append_extract_lo, append_extract_hi, append_bit_lo, append_bit_hi,
      BitVec.extractLsb'_eq_self, Nat.reduceAdd, Nat.reduceLeDiff, Nat.reduceSub, Nat.reduceLT,
      Cond.ofBits_bits, Shift.ofBits_bits, ofBool_bit]

theorem tBx (sbzA h2 rs sbzB) : Statement (.tBx sbzA h2 rs sbzB) := by
  refine fun _ => ⟨30, _, rfl, ?_, ?_⟩
  · show (0b01000111#8 ++ sbzA ++ BitVec.ofBool h2 ++ rs ++ sbzB &&&
      (255#8 ++ 0#1 ++ 0#1 ++ 0#3 ++ 0#3) == 0b01000111#8 ++ 0#1 ++ 0#1 ++ 0#3 ++ 0#3) = true
    simp only [BitVec.and_append, BitVec.and_zero, BitVec.reduceAnd, beq_self_eq_true]
  · simp only [condAt, shiftAt, HAppend.hAppend, append_extract_lo, append_extract_hi, append_bit_lo, append_bit_hi,
      BitVec.extractLsb'_eq_self, Nat.reduceAdd, Nat.reduceLeDiff, Nat.reduceSub, Nat.reduceLT,
      Cond.ofBits_bits, Shift.ofBits_bits, ofBool_bit]

theorem tLdrPc (rd word8) : Statement (.tLdrPc rd word8) := by
  refine fun _ => ⟨31, _, rfl, ?_, ?_⟩
  · show (0b01001#5 ++ rd ++ word8 &&&
      (31#5 ++ 0#3 ++ 0#8) == 0b01001#5 ++ 0#3 ++ 0#8) = true
    simp only [BitVec.and_append, BitVec.and_zero, BitVec.reduceAnd, beq_self_eq_true]
  · simp only [condAt, shiftAt, HAppend.hAppend, append_extract_lo, append_extract_hi, append_bit_lo, append_bit_hi,
      BitVec.extractLsb'_eq_self, Nat.reduceAdd, Nat.reduceLeDiff, Nat.reduceSub, Nat.reduceLT,
      Cond.ofBits_bits, Shift.ofBits_bits, ofBool_bit]

theorem tStrReg (ro rb rd) : Statement (.tStrReg ro rb rd) := by
  refine fun _ => ⟨32, _, rfl, ?_, ?_⟩
  · show (0b0101000#7 ++ ro ++ rb ++ rd &&&
      (127#7 ++ 0#3 ++ 0#3 ++ 0#3) == 0b0101000#7 ++ 0#3 ++ 0#3 ++ 0#3) = true
    simp only [BitVec.and_append, BitVec.and_zero, BitVec.reduceAnd, beq_self_eq_true]
  · simp only [condAt, shiftAt, HAppend.hAppend, append_extract_lo, append_extract_hi, append_bit_lo, append_bit_hi,
      BitVec.extractLsb'_eq_self, Nat.reduceAdd, Nat.reduceLeDiff, Nat.reduceSub, Nat.reduceLT,
      Cond.ofBits_bits, Shift.ofBits_bits, ofBool_bit]

theorem tStrbReg (ro rb rd) : Statement (.tStrbReg ro rb rd) := by
  refine fun _ => ⟨33, _, rfl, ?_, ?_⟩
  · show (0b0101010#7 ++ ro ++ rb ++ rd &&&
      (127#7 ++ 0#3 ++ 0#3 ++ 0#3) == 0b0101010#7 ++ 0#3 ++ 0#3 ++ 0#3) = true
    simp only [BitVec.and_append, BitVec.and_zero, BitVec.reduceAnd, beq_self_eq_true]
  · simp only [condAt, shiftAt, HAppend.hAppend, append_extract_lo, append_extract_hi, append_bit_lo, append_bit_hi,
      BitVec.extractLsb'_eq_self, Nat.reduceAdd, Nat.reduceLeDiff, Nat.reduceSub, Nat.reduceLT,
      Cond.ofBits_bits, Shift.ofBits_bits, ofBool_bit]

theorem tLdrReg (ro rb rd) : Statement (.tLdrReg ro rb rd) := by
  refine fun _ => ⟨34, _, rfl, ?_, ?_⟩
  · show (0b0101100#7 ++ ro ++ rb ++ rd &&&
      (127#7 ++ 0#3 ++ 0#3 ++ 0#3) == 0b0101100#7 ++ 0#3 ++ 0#3 ++ 0#3) = true
    simp only [BitVec.and_append, BitVec.and_zero, BitVec.reduceAnd, beq_self_eq_true]
  · simp only [condAt, shiftAt, HAppend.hAppend, append_extract_lo, append_extract_hi, append_bit_lo, append_bit_hi,
      BitVec.extractLsb'_eq_self, Nat.reduceAdd, Nat.reduceLeDiff, Nat.reduceSub, Nat.reduceLT,
      Cond.ofBits_bits, Shift.ofBits_bits, ofBool_bit]

theorem tLdrbReg (ro rb rd) : Statement (.tLdrbReg ro rb rd) := by
  refine fun _ => ⟨35, _, rfl, ?_, ?_⟩
  · show (0b0101110#7 ++ ro ++ rb ++ rd &&&
      (127#7 ++ 0#3 ++ 0#3 ++ 0#3) == 0b0101110#7 ++ 0#3 ++ 0#3 ++ 0#3) = true
    simp only [BitVec.and_append, BitVec.and_zero, BitVec.reduceAnd, beq_self_eq_true]
  · simp only [condAt, shiftAt, HAppend.hAppend, append_extract_lo, append_extract_hi, append_bit_lo, append_bit_hi,
      BitVec.extractLsb'_eq_self, Nat.reduceAdd, Nat.reduceLeDiff, Nat.reduceSub, Nat.reduceLT,
      Cond.ofBits_bits, Shift.ofBits_bits, ofBool_bit]

theorem tStrhReg (ro rb rd) : Statement (.tStrhReg ro rb rd) := by
  refine fun _ => ⟨36, _, rfl, ?_, ?_⟩
  · show (0b0101001#7 ++ ro ++ rb ++ rd &&&
      (127#7 ++ 0#3 ++ 0#3 ++ 0#3) == 0b0101001#7 ++ 0#3 ++ 0#3 ++ 0#3) = true
    simp only [BitVec.and_append, BitVec.and_zero, BitVec.reduceAnd, beq_self_eq_true]
  · simp only [condAt, shiftAt, HAppend.hAppend, append_extract_lo, append_extract_hi, append_bit_lo, append_bit_hi,
      BitVec.extractLsb'_eq_self, Nat.reduceAdd, Nat.reduceLeDiff, Nat.reduceSub, Nat.reduceLT,
      Cond.ofBits_bits, Shift.ofBits_bits, ofBool_bit]

theorem tLdsb (ro rb rd) : Statement (.tLdsb ro rb rd) := by
  refine fun _ => ⟨37, _, rfl, ?_, ?_⟩
  · show (0b0101011#7 ++ ro ++ rb ++ rd &&&
      (127#7 ++ 0#3 ++ 0#3 ++ 0#3) == 0b0101011#7 ++ 0#3 ++ 0#3 ++ 0#3) = true
    simp only [BitVec.and_append, BitVec.and_zero, BitVec.reduceAnd, beq_self_eq_true]
  · simp only [condAt, shiftAt, HAppend.hAppend, append_extract_lo, append_extract_hi, append_bit_lo, append_bit_hi,
      BitVec.extractLsb'_eq_self, Nat.reduceAdd, Nat.reduceLeDiff, Nat.reduceSub, Nat.reduceLT,
      Cond.ofBits_bits, Shift.ofBits_bits, ofBool_bit]

theorem tLdrhReg (ro rb rd) : Statement (.tLdrhReg ro rb rd) := by
  refine fun _ => ⟨38, _, rfl, ?_, ?_⟩
  · show (0b0101101#7 ++ ro ++ rb ++ rd &&&
      (127#7 ++ 0#3 ++ 0#3 ++ 0#3) == 0b0101101#7 ++ 0#3 ++ 0#3 ++ 0#3) = true
    simp only [BitVec.and_append, BitVec.and_zero, BitVec.reduceAnd, beq_self_eq_true]
  · simp only [condAt, shiftAt, HAppend.hAppend, append_extract_lo, append_extract_hi, append_bit_lo, append_bit_hi,
      BitVec.extractLsb'_eq_self, Nat.reduceAdd, Nat.reduceLeDiff, Nat.reduceSub, Nat.reduceLT,
      Cond.ofBits_bits, Shift.ofBits_bits, ofBool_bit]

theorem tLdsh (ro rb rd) : Statement (.tLdsh ro rb rd) := by
  refine fun _ => ⟨39, _, rfl, ?_, ?_⟩
  · show (0b0101111#7 ++ ro ++ rb ++ rd &&&
      (127#7 ++ 0#3 ++ 0#3 ++ 0#3) == 0b0101111#7 ++ 0#3 ++ 0#3 ++ 0#3) = true
    simp only [BitVec.and_append, BitVec.and_zero, BitVec.reduceAnd, beq_self_eq_true]
  · simp only [condAt, shiftAt, HAppend.hAppend, append_extract_lo, append_extract_hi, append_bit_lo, append_bit_hi,
      BitVec.extractLsb'_eq_self, Nat.reduceAdd, Nat.reduceLeDiff, Nat.reduceSub, Nat.reduceLT,
      Cond.ofBits_bits, Shift.ofBits_bits, ofBool_bit]

theorem tStrImm (off5 rb rd) : Statement (.tStrImm off5 rb rd) := by
  refine fun _ => ⟨40, _, rfl, ?_, ?_⟩
  · show (0b01100#5 ++ off5 ++ rb ++ rd &&&
      (31#5 ++ 0#5 ++ 0#3 ++ 0#3) == 0b01100#5 ++ 0#5 ++ 0#3 ++ 0#3) = true
    simp only [BitVec.and_append, BitVec.and_zero, BitVec.reduceAnd, beq_self_eq_true]
  · simp only [condAt, shiftAt, HAppend.hAppend, append_extract_lo, append_extract_hi, append_bit_lo, append_bit_hi,
      BitVec.extractLsb'_eq_self, Nat.reduceAdd, Nat.reduceLeDiff, Nat.reduceSub, Nat.reduceLT,
      Cond.ofBits_bits, Shift.ofBits_bits, ofBool_bit]

theorem tLdrImm (off5 rb rd) : Statement (.tLdrImm off5 rb rd) := by
  refine fun _ => ⟨41, _, rfl, ?_, ?_⟩
  · show (0b01101#5 ++ off5 ++ rb ++ rd &&&
      (31#5 ++ 0#5 ++ 0#3 ++ 0#3) == 0b01101#5 ++ 0#5 ++ 0#3 ++ 0#3) = true
    simp only [BitVec.and_append, BitVec.and_zero, BitVec.reduceAnd, beq_self_eq_true]
  · simp only [condAt, shiftAt, HAppend.hAppend, append_extract_lo, append_extract_hi, append_bit_lo, append_bit_hi,
      BitVec.extractLsb'_eq_self, Nat.reduceAdd, Nat.reduceLeDiff, Nat.reduceSub, Nat.reduceLT,
      Cond.ofBits_bits, Shift.ofBits_bits, ofBool_bit]

theorem tStrbImm (off5 rb rd) : Statement (.tStrbImm off5 rb rd) := by
  refine fun _ => ⟨42, _, rfl, ?_, ?_⟩
  · show (0b01110#5 ++ off5 ++ rb ++ rd &&&
      (31#5 ++ 0#5 ++ 0#3 ++ 0#3) == 0b01110#5 ++ 0#5 ++ 0#3 ++ 0#3) = true
    simp only [BitVec.and_append, BitVec.and_zero, BitVec.reduceAnd, beq_self_eq_true]
  · simp only [condAt, shiftAt, HAppend.hAppend, append_extract_lo, append_extract_hi, append_bit_lo, append_bit_hi,
      BitVec.extractLsb'_eq_self, Nat.reduceAdd, Nat.reduceLeDiff, Nat.reduceSub, Nat.reduceLT,
      Cond.ofBits_bits, Shift.ofBits_bits, ofBool_bit]

theorem tLdrbImm (off5 rb rd) : Statement (.tLdrbImm off5 rb rd) := by
  refine fun _ => ⟨43, _, rfl, ?_, ?_⟩
  · show (0b01111#5 ++ off5 ++ rb ++ rd &&&
      (31#5 ++ 0#5 ++ 0#3 ++ 0#3) == 0b01111#5 ++ 0#5 ++ 0#3 ++ 0#3) = true
    simp only [BitVec.and_append, BitVec.and_zero, BitVec.reduceAnd, beq_self_eq_true]
  · simp only [condAt, shiftAt, HAppend.hAppend, append_extract_lo, append_extract_hi, append_bit_lo, append_bit_hi,
      BitVec.extractLsb'_eq_self, Nat.reduceAdd, Nat.reduceLeDiff, Nat.reduceSub, Nat.reduceLT,
      Cond.ofBits_bits, Shift.ofBits_bits, ofBool_bit]

theorem tStrhImm (off5 rb rd) : Statement (.tStrhImm off5 rb rd) := by
  refine fun _ => ⟨44, _, rfl, ?_, ?_⟩
  · show (0b10000#5 ++ off5 ++ rb ++ rd &&&
      (31#5 ++ 0#5 ++ 0#3 ++ 0#3) == 0b10000#5 ++ 0#5 ++ 0#3 ++ 0#3) = true
    simp only [BitVec.and_append, BitVec.and_zero, BitVec.reduceAnd, beq_self_eq_true]
  · simp only [condAt, shiftAt, HAppend.hAppend, append_extract_lo, append_extract_hi, append_bit_lo, append_bit_hi,
      BitVec.extractLsb'_eq_self, Nat.reduceAdd, Nat.reduceLeDiff, Nat.reduceSub, Nat.reduceLT,
      Cond.ofBits_bits, Shift.ofBits_bits, ofBool_bit]

theorem tLdrhImm (off5 rb rd) : Statement (.tLdrhImm off5 rb rd) := by
  refine fun _ => ⟨45, _, rfl, ?_, ?_⟩
  · show (0b10001#5 ++ off5 ++ rb ++ rd &&&
      (31#5 ++ 0#5 ++ 0#3 ++ 0#3) == 0b10001#5 ++ 0#5 ++ 0#3 ++ 0#3) = true
    simp only [BitVec.and_append, BitVec.and_zero, BitVec.reduceAnd, beq_self_eq_true]
  · simp only [condAt, shiftAt, HAppend.hAppend, append_extract_lo, append_extract_hi, append_bit_lo, append_bit_hi,
      BitVec.extractLsb'_eq_self, Nat.reduceAdd, Nat.reduceLeDiff, Nat.reduceSub, Nat.reduceLT,
      Cond.ofBits_bits, Shift.ofBits_bits, ofBool_bit]

theorem tStrSp (rd word8) : Statement (.tStrSp rd word8) := by
  refine fun _ => ⟨46, _, rfl, ?_, ?_⟩
  · show (0b10010#5 ++ rd ++ word8 &&&
      (31#5 ++ 0#3 ++ 0#8) == 0b10010#5 ++ 0#3 ++ 0#8) = true
    simp only [BitVec.and_append, BitVec.and_zero, BitVec.reduceAnd, beq_self_eq_true]
  · simp only [condAt, shiftAt, HAppend.hAppend, append_extract_lo, append_extract_hi, append_bit_lo, append_bit_hi,
      BitVec.extractLsb'_eq_self, Nat.reduceAdd, Nat.reduceLeDiff, Nat.reduceSub, Nat.reduceLT,
      Cond.ofBits_bits, Shift.ofBits_bits, ofBool_bit]

theorem tLdrSp (rd word8) : Statement (.tLdrSp rd word8) := by
  refine fun _ => ⟨47, _, rfl, ?_, ?_⟩
  · show (0b10011#5 ++ rd ++ word8 &&&
      (31#5 ++ 0#3 ++ 0#8) == 0b10011#5 ++ 0#3 ++ 0#8) = true
    simp only [BitVec.and_append, BitVec.and_zero, BitVec.reduceAnd, beq_self_eq_true]
  · simp only [condAt, shiftAt, HAppend.hAppend, append_extract_lo, append_extract_hi, append_bit_lo, append_bit_hi,
      BitVec.extractLsb'_eq_self, Nat.reduceAdd, Nat.reduceLeDiff, Nat.reduceSub, Nat.reduceLT,
      Cond.ofBits_bits, Shift.ofBits_bits, ofBool_bit]

theorem tAddPc (rd word8) : Statement (.tAddPc rd word8) := by
  refine fun _ => ⟨48, _, rfl, ?_, ?_⟩
  · show (0b10100#5 ++ rd ++ word8 &&&
      (31#5 ++ 0#3 ++ 0#8) == 0b10100#5 ++ 0#3 ++ 0#8) = true
    simp only [BitVec.and_append, BitVec.and_zero, BitVec.reduceAnd, beq_self_eq_true]
  · simp only [condAt, shiftAt, HAppend.hAppend, append_extract_lo, append_extract_hi, append_bit_lo, append_bit_hi,
      BitVec.extractLsb'_eq_self, Nat.reduceAdd, Nat.reduceLeDiff, Nat.reduceSub, Nat.reduceLT,
      Cond.ofBits_bits, Shift.ofBits_bits, ofBool_bit]

theorem tAddSp (rd word8) : Statement (.tAddSp rd word8) := by
  refine fun _ => ⟨49, _, rfl, ?_, ?_⟩
  · show (0b10101#5 ++ rd ++ word8 &&&
      (31#5 ++ 0#3 ++ 0#8) == 0b10101#5 ++ 0#3 ++ 0#8) = true
    simp only [BitVec.and_append, BitVec.and_zero, BitVec.reduceAnd, beq_self_eq_true]
  · simp only [condAt, shiftAt, HAppend.hAppend, append_extract_lo, append_extract_hi, append_bit_lo, append_bit_hi,
      BitVec.extractLsb'_eq_self, Nat.reduceAdd, Nat.reduceLeDiff, Nat.reduceSub, Nat.reduceLT,
      Cond.ofBits_bits, Shift.ofBits_bits, ofBool_bit]

theorem tAddSpImm (s sword7) : Statement (.tAddSpImm s sword7) := by
  refine fun _ => ⟨50, _, rfl, ?_, ?_⟩
  · show (0b10110000#8 ++ BitVec.ofBool s ++ sword7 &&&
      (255#8 ++ 0#1 ++ 0#7) == 0b10110000#8 ++ 0#1 ++ 0#7) = true
    simp only [BitVec.and_append, BitVec.and_zero, BitVec.reduceAnd, beq_self_eq_true]
  · simp only [condAt, shiftAt, HAppend.hAppend, append_extract_lo, append_extract_hi, append_bit_lo, append_bit_hi,
      BitVec.extractLsb'_eq_self, Nat.reduceAdd, Nat.reduceLeDiff, Nat.reduceSub, Nat.reduceLT,
      Cond.ofBits_bits, Shift.ofBits_bits, ofBool_bit]

theorem tPush (r list) : Statement (.tPush r list) := by
  refine fun _ => ⟨51, _, rfl, ?_, ?_⟩
  · show (0b1011010#7 ++ BitVec.ofBool r ++ list &&&
      (127#7 ++ 0#1 ++ 0#8) == 0b1011010#7 ++ 0#1 ++ 0#8) = true
    simp only [BitVec.and_append, BitVec.and_zero, BitVec.reduceAnd, beq_self_eq_true]
  · simp only [condAt, shiftAt, HAppend.hAppend, append_extract_lo, append_extract_hi, append_bit_lo, append_bit_hi,
      BitVec.extractLsb'_eq_self, Nat.reduceAdd, Nat.reduceLeDiff, Nat.reduceSub, Nat.reduceLT,
      Cond.ofBits_bits, Shift.ofBits_bits, ofBool_bit]

theorem tPop (r list) : Statement (.tPop r list) := by
  refine fun _ => ⟨52, _, rfl, ?_, ?_⟩
  · show (0b1011110#7 ++ BitVec.ofBool r ++ list &&&
      (127#7 ++ 0#1 ++ 0#8) == 0b1011110#7 ++ 0#1 ++ 0#8) = true
    simp only [BitVec.and_append, BitVec.and_zero, BitVec.reduceAnd, beq_self_eq_true]
  · simp only [condAt, shiftAt, HAppend.hAppend, append_extract_lo, append_extract_hi, append_bit_lo, append_bit_hi,
      BitVec.extractLsb'_eq_self, Nat.reduceAdd, Nat.reduceLeDiff, Nat.reduceSub, Nat.reduceLT,
      Cond.ofBits_bits, Shift.ofBits_bits, ofBool_bit]

theorem tStmia (rb list) : Statement (.tStmia rb list) := by
  refine fun _ => ⟨53, _, rfl, ?_, ?_⟩
  · show (0b11000#5 ++ rb ++ list &&&
      (31#5 ++ 0#3 ++ 0#8) == 0b11000#5 ++ 0#3 ++ 0#8) = true
    simp only [BitVec.and_append, BitVec.and_zero, BitVec.reduceAnd, beq_self_eq_true]
  · simp only [condAt, shiftAt, HAppend.hAppend, append_extract_lo, append_extract_hi, append_bit_lo, append_bit_hi,
      BitVec.extractLsb'_eq_self, Nat.reduceAdd, Nat.reduceLeDiff, Nat.reduceSub, Nat.reduceLT,
      Cond.ofBits_bits, Shift.ofBits_bits, ofBool_bit]

theorem tLdmia (rb list) : Statement (.tLdmia rb list) := by
  refine fun _ => ⟨54, _, rfl, ?_, ?_⟩
  · show (0b11001#5 ++ rb ++ list &&&
      (31#5 ++ 0#3 ++ 0#8) == 0b11001#5 ++ 0#3 ++ 0#8) = true
    simp only [BitVec.and_append, BitVec.and_zero, BitVec.reduceAnd, beq_self_eq_true]
  · simp only [condAt, shiftAt, HAppend.hAppend, append_extract_lo, append_extract_hi, append_bit_lo, append_bit_hi,
      BitVec.extractLsb'_eq_self, Nat.reduceAdd, Nat.reduceLeDiff, Nat.reduceSub, Nat.reduceLT,
      Cond.ofBits_bits, Shift.ofBits_bits, ofBool_bit]

theorem tBCond (cond soff8) : Statement (.tBCond cond soff8) := by
  intro h
  have row (k : Nat) (r : Row 16) (hr : thumbRows[k]? = some r)
      (hm : (r.matches (0b1101#4 ++ cond.bits ++ soff8)) = true)
      (hb : r.build = fun w => .tBCond (condAt w 8) (w.extractLsb' 0 8)) :
      ∃ (k : Nat) (r : Row 16), thumbRows[k]? = some r ∧ r.matches (0b1101#4 ++ cond.bits ++ soff8) = true ∧
        r.build (0b1101#4 ++ cond.bits ++ soff8) = .tBCond cond soff8 := by
    refine ⟨k, r, hr, hm, ?_⟩
    rw [hb]
    simp only [condAt, HAppend.hAppend, append_extract_lo, append_extract_hi,
      BitVec.extractLsb'_eq_self, Nat.reduceAdd, Nat.reduceLeDiff, Nat.reduceSub, Cond.ofBits_bits]
  show ∃ (k : Nat) (r : Row 16), thumbRows[k]? = some r ∧ r.matches (0b1101#4 ++ cond.bits ++ soff8) = true ∧
    r.build (0b1101#4 ++ cond.bits ++ soff8) = .tBCond cond soff8
  cases cond
  · refine row 55 _ rfl ?_ rfl
    show (0b1101#4 ++ 0b0000#4 ++ soff8 &&& (15#4 ++ 8#4 ++ 0#8) == 13#4 ++ 0#4 ++ 0#8) = true
    simp only [BitVec.and_append, BitVec.and_zero, BitVec.reduceAnd, beq_self_eq_true]
  · refine row 55 _ rfl ?_ rfl
    show (0b1101#4 ++ 0b0001#4 ++ soff8 &&& (15#4 ++ 8#4 ++ 0#8) == 13#4 ++ 0#4 ++ 0#8) = true
    simp only [BitVec.and_append, BitVec.and_zero, BitVec.reduceAnd, beq_self_eq_true]
  · refine row 55 _ rfl ?_ rfl
    show (0b1101#4 ++ 0b0010#4 ++ soff8 &&& (15#4 ++ 8#4 ++ 0#8) == 13#4 ++ 0#4 ++ 0#8) = true
    simp only [BitVec.and_append, BitVec.and_zero, BitVec.reduceAnd, beq_self_eq_true]
  · refine row 55 _ rfl ?_ rfl
    show (0b1101#4 ++ 0b0011#4 ++ soff8 &&& (15#4 ++ 8#4 ++ 0#8) == 13#4 ++ 0#4 ++ 0#8) = true
    simp only [BitVec.and_append, BitVec.and_zero, BitVec.reduceAnd, beq_self_eq_true]
  · refine row 55 _ rfl ?_ rfl
    show (0b1101#4 ++ 0b0100#4 ++ soff8 &&& (15#4 ++ 8#4 ++ 0#8) == 13#4 ++ 0#4 ++ 0#8) = true
    simp only [BitVec.and_append, BitVec.and_zero, BitVec.reduceAnd, beq_self_eq_true]
  · refine row 55 _ rfl ?_ rfl
    show (0b1101#4 ++ 0b0101#4 ++ soff8 &&& (15#4 ++ 8#4 ++ 0#8) == 13#4 ++ 0#4 ++ 0#8) = true
    simp only [BitVec.and_append, BitVec.and_zero, BitVec.reduceAnd, beq_self_eq_true]
  · refine row 55 _ rfl ?_ rfl
    show (0b1101#4 ++ 0b0110#4 ++ soff8 &&& (15#4 ++ 8#4 ++ 0#8) == 13#4 ++ 0#4 ++ 0#8) = true
    simp only [BitVec.and_append, BitVec.and_zero, BitVec.reduceAnd, beq_self_eq_true]
  · refine row 55 _ rfl ?_ rfl
    show (0b1101#4 ++ 0b0111#4 ++ soff8 &&& (15#4 ++ 8#4 ++ 0#8) == 13#4 ++ 0#4 ++ 0#8) = true
    simp only [BitVec.and_append, BitVec.and_zero, BitVec.reduceAnd, beq_self_eq_true]
  · refine row 56 _ rfl ?_ rfl
    show (0b1101#4 ++ 0b1000#4 ++ soff8 &&& (15#4 ++ 12#4 ++ 0#8) == 13#4 ++ 8#4 ++ 0#8) = true
    simp only [BitVec.and_append, BitVec.and_zero, BitVec.reduceAnd, beq_self_eq_true]
  · refine row 56 _ rfl ?_ rfl
    show (0b1101#4 ++ 0b1001#4 ++ soff8 &&& (15#4 ++ 12#4 ++ 0#8) == 13#4 ++ 8#4 ++ 0#8) = true
    simp only [BitVec.and_append, BitVec.and_zero, BitVec.reduceAnd, beq_self_eq_true]
  · refine row 56 _ rfl ?_ rfl
    show (0b1101#4 ++ 0b1010#4 ++ soff8 &&& (15#4 ++ 12#4 ++ 0#8) == 13#4 ++ 8#4 ++ 0#8) = true
    simp only [BitVec.and_append, BitVec.and_zero, BitVec.reduceAnd, beq_self_eq_true]
  · refine row 56 _ rfl ?_ rfl
    show (0b1101#4 ++ 0b1011#4 ++ soff8 &&& (15#4 ++ 12#4 ++ 0#8) == 13#4 ++ 8#4 ++ 0#8) = true
    simp only [BitVec.and_append, BitVec.and_zero, BitVec.reduceAnd, beq_self_eq_true]
  · refine row 57 _ rfl ?_ rfl
    show (0b1101#4 ++ 0b1100#4 ++ soff8 &&& (15#4 ++ 14#4 ++ 0#8) == 13#4 ++ 12#4 ++ 0#8) = true
    simp only [BitVec.and_append, BitVec.and_zero, BitVec.reduceAnd, beq_self_eq_true]
  · refine row 57 _ rfl ?_ rfl
    show (0b1101#4 ++ 0b1101#4 ++ soff8 &&& (15#4 ++ 14#4 ++ 0#8) == 13#4 ++ 12#4 ++ 0#8) = true
    simp only [BitVec.and_append, BitVec.and_zero, BitVec.reduceAnd, beq_self_eq_true]
  · exact absurd h Bool.false_ne_true
  · exact absurd h Bool.false_ne_true

theorem tSwi (value8) : Statement (.tSwi value8) := by
  refine fun _ => ⟨58, _, rfl, ?_, ?_⟩
  · show (0b11011111#8 ++ value8 &&&
      (255#8 ++ 0#8) == 0b11011111#8 ++ 0#8) = true
    simp only [BitVec.and_append, BitVec.and_zero, BitVec.reduceAnd, beq_self_eq_true]
  · simp only [condAt, shiftAt, HAppend.hAppend, append_extract_lo, append_extract_hi, append_bit_lo, append_bit_hi,
      BitVec.extractLsb'_eq_self, Nat.reduceAdd, Nat.reduceLeDiff, Nat.reduceSub, Nat.reduceLT,
      Cond.ofBits_bits, Shift.ofBits_bits, ofBool_bit]

theorem tB (off11) : Statement (.tB off11) := by
  refine fun _ => ⟨59, _, rfl, ?_, ?_⟩
  · show (0b11100#5 ++ off11 &&&
      (31#5 ++ 0#11) == 0b11100#5 ++ 0#11) = true
    simp only [BitVec.and_append, BitVec.and_zero, BitVec.reduceAnd, beq_self_eq_true]
  · simp only [condAt, shiftAt, HAppend.hAppend, append_extract_lo, append_extract_hi, append_bit_lo, append_bit_hi,
      BitVec.extractLsb'_eq_self, Nat.reduceAdd, Nat.reduceLeDiff, Nat.reduceSub, Nat.reduceLT,
      Cond.ofBits_bits, Shift.ofBits_bits, ofBool_bit]

theorem tBlHi (off11) : Statement (.tBlHi off11) := by
  refine fun _ => ⟨60, _, rfl, ?_, ?_⟩
  · show (0b11110#5 ++ off11 &&&
      (31#5 ++ 0#11) == 0b11110#5 ++ 0#11) = true
    simp only [BitVec.and_append, BitVec.and_zero, BitVec.reduceAnd, beq_self_eq_true]
  · simp only [condAt, shiftAt, HAppend.hAppend, append_extract_lo, append_extract_hi, append_bit_lo, append_bit_hi,
      BitVec.extractLsb'_eq_self, Nat.reduceAdd, Nat.reduceLeDiff, Nat.reduceSub, Nat.reduceLT,
      Cond.ofBits_bits, Shift.ofBits_bits, ofBool_bit]

theorem tBlLo (off11) : Statement (.tBlLo off11) := by
  refine fun _ => ⟨61, _, rfl, ?_, ?_⟩
  · show (0b11111#5 ++ off11 &&&
      (31#5 ++ 0#11) == 0b11111#5 ++ 0#11) = true
    simp only [BitVec.and_append, BitVec.and_zero, BitVec.reduceAnd, beq_self_eq_true]
  · simp only [condAt, shiftAt, HAppend.hAppend, append_extract_lo, append_extract_hi, append_bit_lo, append_bit_hi,
      BitVec.extractLsb'_eq_self, Nat.reduceAdd, Nat.reduceLeDiff, Nat.reduceSub, Nat.reduceLT,
      Cond.ofBits_bits, Shift.ofBits_bits, ofBool_bit]

end Sys2Proof.Laws.Encoding
end

