-- ==== Sys2Proof/Tests/Slice0.lean ====
section
/-!
SUPPORT. Tests of the model.  Expected words, registers and flags come from spec/95_test_vectors.md, from the examples of
the rules, or by hand from the rules; none from the model.  The last part shows, for every obligation with hypotheses, a
concrete state and operands that meet them.
-/

namespace Sys2Proof.Tests

open Sys2Proof Sys2Proof.Machine

set_option Elab.async false

-- Helpers

/-- The parameters of the tests: the defaults, with direct boot, a fixed cycle cost and no button pressed. -/
def testParams (u : UnpredMode) : Params :=
  { Params.default with
    unpred := u, directBoot := true, cycleCost := some 1, input := some 0, biosImage := true, romSize := 0x1000000 }

/-- A machine under direct boot whose images are there and hold zeros. -/
def booted (u : UnpredMode) : State := { State.resetWith (testParams u) none [] with params := testParams u }

/-- The start of the vectors of 95_test_vectors.md: direct boot, a strict machine. -/
def boot : State := booted .strict

/-- A machine that stops at no case with an ARM7TDMI behaviour. -/
def arm7 : State := booted .arm7tdmi

def inMode (p : Cpsr) (s : State) : State := { s with cpsr := p }

def startingAt (pc : Word) (s : State) : State := { s with pc := pc }

/-- Bytes placed in memory, little-endian. -/
def data (l : List (Width × Word × Word)) (s : State) : State :=
  l.foldl (fun s d => (List.range d.1.bytes).foldl
    (fun s k => s.setMem (s.mem.write (cell s.bus (d.2.1 + BitVec.ofNat 32 k)) (d.2.2.extractLsb' (8 * k) 8))) s) s

def regs (l : List (Mode × Reg × Word)) (s : State) : State := l.foldl (fun s r => s.setRegOf r.1 r.2.1 r.2.2) s

def saved (l : List (Mode × Psr)) (s : State) : State := l.foldl (fun s r => s.setSpsr r.1 r.2) s

/-- One step answers a next state of which `f` holds. -/
def holds (f : State → Bool) (s : State) : Bool :=
  match step s with
  | .next t => f t
  | .fault _ => false
  | .refused _ => false

/-- One step stops with this fault. -/
def stops (e : Fault) (s : State) : Bool :=
  match step s with
  | .next _ => false
  | .fault e' => e' == e
  | .refused _ => false

-- Well-formed instructions (R21, R172, R160)

/-- A well-formed term of each kind of check. -/
theorem test_well_formed :
    Instr.WellFormed (.addImm .al true 1 7 0 4) ∧ Instr.WellFormed (.cmpImm .eq 1 0 0 4) ∧
      Instr.WellFormed (.mrs .al false 15 2 0 0 0) ∧ Instr.WellFormed (.bx .al 0xFFF 1) ∧
      Instr.WellFormed (.tBCond .le 0xFE) ∧ Instr.WellFormed (.tBx 0 true 6 0) := by decide

/-- The condition 1111 is refused (R172). -/
theorem test_ill_formed_condition :
    ¬Instr.WellFormed (.addImm .nv true 1 7 0 4) ∧ ¬Instr.WellFormed (.ldm .nv false true false 1 2) ∧
      ¬Instr.WellFormed (.und .nv 0 0) := by decide

/-- Each should-be-zero field of the ARM formats is refused at another value (R135 to R143). -/
theorem test_ill_formed_sbz :
    ¬Instr.WellFormed (.tstImm .al 1 1 0 4) ∧ ¬Instr.WellFormed (.tstRsi .al 1 8 0 .lsl 4) ∧
      ¬Instr.WellFormed (.tstRsr .al 1 4 3 .lsl 4) ∧ ¬Instr.WellFormed (.teqImm .al 1 1 0 4) ∧
      ¬Instr.WellFormed (.teqRsi .al 1 8 0 .lsl 4) ∧ ¬Instr.WellFormed (.teqRsr .al 1 4 3 .lsl 4) ∧
      ¬Instr.WellFormed (.cmpImm .al 1 1 0 4) ∧ ¬Instr.WellFormed (.cmpRsi .al 1 8 0 .lsl 4) ∧
      ¬Instr.WellFormed (.cmpRsr .al 1 4 3 .lsl 4) ∧ ¬Instr.WellFormed (.cmnImm .al 1 1 0 4) ∧
      ¬Instr.WellFormed (.cmnRsi .al 1 8 0 .lsl 4) ∧ ¬Instr.WellFormed (.cmnRsr .al 1 4 3 .lsl 4) ∧
      ¬Instr.WellFormed (.movImm .al true 1 2 0 4) ∧ ¬Instr.WellFormed (.movRsi .al true 8 2 0 .lsl 4) ∧
      ¬Instr.WellFormed (.movRsr .al true 4 2 3 .lsl 4) ∧ ¬Instr.WellFormed (.mvnImm .al true 1 2 0 4) ∧
      ¬Instr.WellFormed (.mvnRsi .al true 8 2 0 .lsl 4) ∧ ¬Instr.WellFormed (.mvnRsr .al true 4 2 3 .lsl 4) ∧
      ¬Instr.WellFormed (.mul .al true 1 1 3 4) ∧ ¬Instr.WellFormed (.swp .al 1 2 1 4) ∧
      ¬Instr.WellFormed (.swpb .al 1 2 8 4) ∧ ¬Instr.WellFormed (.strhReg .al true true false 1 2 1 4) ∧
      ¬Instr.WellFormed (.ldrhReg .al true true false 1 2 2 4) ∧
      ¬Instr.WellFormed (.ldrsbReg .al true true false 1 2 4 4) ∧
      ¬Instr.WellFormed (.ldrshReg .al true true false 1 2 8 4) := by decide

/-- Each should-be field of the status-register transfers and of BX is refused at another value (R139 to R142, R160). -/
theorem test_ill_formed_status_and_bx :
    ¬Instr.WellFormed (.mrs .al false 14 2 0 0 0) ∧ ¬Instr.WellFormed (.mrs .al false 15 2 1 0 0) ∧
      ¬Instr.WellFormed (.mrs .al false 15 2 0 1 0) ∧ ¬Instr.WellFormed (.mrs .al false 15 2 0 0 1) ∧
      ¬Instr.WellFormed (.msrReg .al false 9 14 0 0 4) ∧ ¬Instr.WellFormed (.msrReg .al false 9 15 1 0 4) ∧
      ¬Instr.WellFormed (.msrReg .al false 9 15 0 2 4) ∧ ¬Instr.WellFormed (.msrImm .al false 9 7 0 4) ∧
      ¬Instr.WellFormed (.bx .al 0xFFE 1) ∧ ¬Instr.WellFormed (.tBx 1 true 6 0) ∧
      ¬Instr.WellFormed (.tBx 0 true 6 4) := by decide

/-- A Thumb branch has one of the fourteen conditions 0000 to 1101 (R160, R472). -/
theorem test_ill_formed_thumb_branch :
    ¬Instr.WellFormed (.tBCond .al 0) ∧ ¬Instr.WellFormed (.tBCond .nv 0) := by decide

-- Decoding: every constructor by a word written out from its format

/-- R132, R135: `cond 001 opcode S Rn Rd rotate imm8`. -/
theorem test_decode_dp_imm :
    decode (.arm 0b1110_001_0000_1_0001_0010_0110_01011010#32) = .ok (.andImm .al true 1 2 6 0x5A) ∧
    decode (.arm 0b0000_001_0001_0_0001_0010_0110_01011010#32) = .ok (.eorImm .eq false 1 2 6 0x5A) ∧
    decode (.arm 0b0001_001_0010_1_0001_0010_0110_01011010#32) = .ok (.subImm .ne true 1 2 6 0x5A) ∧
    decode (.arm 0b0010_001_0011_0_0001_0010_0110_01011010#32) = .ok (.rsbImm .cs false 1 2 6 0x5A) ∧
    decode (.arm 0b0011_001_0100_1_0001_0010_0110_01011010#32) = .ok (.addImm .cc true 1 2 6 0x5A) ∧
    decode (.arm 0b0100_001_0101_0_0001_0010_0110_01011010#32) = .ok (.adcImm .mi false 1 2 6 0x5A) ∧
    decode (.arm 0b0101_001_0110_1_0001_0010_0110_01011010#32) = .ok (.sbcImm .pl true 1 2 6 0x5A) ∧
    decode (.arm 0b0110_001_0111_0_0001_0010_0110_01011010#32) = .ok (.rscImm .vs false 1 2 6 0x5A) ∧
    decode (.arm 0b0111_001_1000_1_0001_0000_0110_01011010#32) = .ok (.tstImm .vc 1 0 6 0x5A) ∧
    decode (.arm 0b1000_001_1001_1_0001_0000_0110_01011010#32) = .ok (.teqImm .hi 1 0 6 0x5A) ∧
    decode (.arm 0b1001_001_1010_1_0001_0000_0110_01011010#32) = .ok (.cmpImm .ls 1 0 6 0x5A) ∧
    decode (.arm 0b1010_001_1011_1_0001_0000_0110_01011010#32) = .ok (.cmnImm .ge 1 0 6 0x5A) ∧
    decode (.arm 0b1011_001_1100_0_0001_0010_0110_01011010#32) = .ok (.orrImm .lt false 1 2 6 0x5A) ∧
    decode (.arm 0b1100_001_1101_1_0000_0010_0110_01011010#32) = .ok (.movImm .gt true 0 2 6 0x5A) ∧
    decode (.arm 0b1101_001_1110_0_0001_0010_0110_01011010#32) = .ok (.bicImm .le false 1 2 6 0x5A) ∧
    decode (.arm 0b1111_001_1111_1_0000_0010_0110_01011010#32) = .ok (.mvnImm .nv true 0 2 6 0x5A) := by decide +kernel

/-- R133, R135: `cond 000 opcode S Rn Rd shift_imm shift 0 Rm`. -/
theorem test_decode_dp_shift_imm :
    decode (.arm 0b1110_000_0000_0_0001_0010_01001_00_0_0100#32) = .ok (.andRsi .al false 1 2 9 .lsl 4) ∧
    decode (.arm 0b1110_000_0001_1_0001_0010_01001_01_0_0100#32) = .ok (.eorRsi .al true 1 2 9 .lsr 4) ∧
    decode (.arm 0b1110_000_0010_0_0001_0010_01001_10_0_0100#32) = .ok (.subRsi .al false 1 2 9 .asr 4) ∧
    decode (.arm 0b1110_000_0011_1_0001_0010_01001_11_0_0100#32) = .ok (.rsbRsi .al true 1 2 9 .ror 4) ∧
    decode (.arm 0b1110_000_0100_0_0001_0010_01001_00_0_0100#32) = .ok (.addRsi .al false 1 2 9 .lsl 4) ∧
    decode (.arm 0b1110_000_0101_1_0001_0010_01001_01_0_0100#32) = .ok (.adcRsi .al true 1 2 9 .lsr 4) ∧
    decode (.arm 0b1110_000_0110_0_0001_0010_01001_10_0_0100#32) = .ok (.sbcRsi .al false 1 2 9 .asr 4) ∧
    decode (.arm 0b1110_000_0111_1_0001_0010_01001_11_0_0100#32) = .ok (.rscRsi .al true 1 2 9 .ror 4) ∧
    decode (.arm 0b1110_000_1000_1_0001_0000_01001_00_0_0100#32) = .ok (.tstRsi .al 1 0 9 .lsl 4) ∧
    decode (.arm 0b1110_000_1001_1_0001_0000_01001_01_0_0100#32) = .ok (.teqRsi .al 1 0 9 .lsr 4) ∧
    decode (.arm 0b1110_000_1010_1_0001_0000_01001_10_0_0100#32) = .ok (.cmpRsi .al 1 0 9 .asr 4) ∧
    decode (.arm 0b1110_000_1011_1_0001_0000_01001_11_0_0100#32) = .ok (.cmnRsi .al 1 0 9 .ror 4) ∧
    decode (.arm 0b1110_000_1100_0_0001_0010_01001_00_0_0100#32) = .ok (.orrRsi .al false 1 2 9 .lsl 4) ∧
    decode (.arm 0b1110_000_1101_1_0000_0010_01001_01_0_0100#32) = .ok (.movRsi .al true 0 2 9 .lsr 4) ∧
    decode (.arm 0b1110_000_1110_0_0001_0010_01001_10_0_0100#32) = .ok (.bicRsi .al false 1 2 9 .asr 4) ∧
    decode (.arm 0b1110_000_1111_1_0000_0010_01001_11_0_0100#32) = .ok (.mvnRsi .al true 0 2 9 .ror 4) := by decide +kernel

/-- R134, R135: `cond 000 opcode S Rn Rd Rs 0 shift 1 Rm`. -/
theorem test_decode_dp_shift_reg :
    decode (.arm 0b1110_000_0000_1_0001_0010_0011_0_00_1_0100#32) = .ok (.andRsr .al true 1 2 3 .lsl 4) ∧
    decode (.arm 0b1110_000_0001_0_0001_0010_0011_0_01_1_0100#32) = .ok (.eorRsr .al false 1 2 3 .lsr 4) ∧
    decode (.arm 0b1110_000_0010_1_0001_0010_0011_0_10_1_0100#32) = .ok (.subRsr .al true 1 2 3 .asr 4) ∧
    decode (.arm 0b1110_000_0011_0_0001_0010_0011_0_11_1_0100#32) = .ok (.rsbRsr .al false 1 2 3 .ror 4) ∧
    decode (.arm 0b1110_000_0100_1_0001_0010_0011_0_00_1_0100#32) = .ok (.addRsr .al true 1 2 3 .lsl 4) ∧
    decode (.arm 0b1110_000_0101_0_0001_0010_0011_0_01_1_0100#32) = .ok (.adcRsr .al false 1 2 3 .lsr 4) ∧
    decode (.arm 0b1110_000_0110_1_0001_0010_0011_0_10_1_0100#32) = .ok (.sbcRsr .al true 1 2 3 .asr 4) ∧
    decode (.arm 0b1110_000_0111_0_0001_0010_0011_0_11_1_0100#32) = .ok (.rscRsr .al false 1 2 3 .ror 4) ∧
    decode (.arm 0b1110_000_1000_1_0001_0000_0011_0_00_1_0100#32) = .ok (.tstRsr .al 1 0 3 .lsl 4) ∧
    decode (.arm 0b1110_000_1001_1_0001_0000_0011_0_01_1_0100#32) = .ok (.teqRsr .al 1 0 3 .lsr 4) ∧
    decode (.arm 0b1110_000_1010_1_0001_0000_0011_0_10_1_0100#32) = .ok (.cmpRsr .al 1 0 3 .asr 4) ∧
    decode (.arm 0b1110_000_1011_1_0001_0000_0011_0_11_1_0100#32) = .ok (.cmnRsr .al 1 0 3 .ror 4) ∧
    decode (.arm 0b1110_000_1100_1_0001_0010_0011_0_00_1_0100#32) = .ok (.orrRsr .al true 1 2 3 .lsl 4) ∧
    decode (.arm 0b1110_000_1101_0_0000_0010_0011_0_01_1_0100#32) = .ok (.movRsr .al false 0 2 3 .lsr 4) ∧
    decode (.arm 0b1110_000_1110_1_0001_0010_0011_0_10_1_0100#32) = .ok (.bicRsr .al true 1 2 3 .asr 4) ∧
    decode (.arm 0b1110_000_1111_0_0000_0010_0011_0_11_1_0100#32) = .ok (.mvnRsr .al false 0 2 3 .ror 4) := by decide +kernel

/-- R136: `cond 000000 A S Rd Rn Rs 1001 Rm`; R137: `cond 00001 U A S RdHi RdLo Rs 1001 Rm`. -/
theorem test_decode_multiply :
    decode (.arm 0b1110_000000_0_1_0001_0000_0011_1001_0100#32) = .ok (.mul .al true 1 0 3 4) ∧
    decode (.arm 0b1110_000000_1_0_0001_0010_0011_1001_0100#32) = .ok (.mla .al false 1 2 3 4) ∧
    decode (.arm 0b1110_00001_0_0_1_0001_0010_0011_1001_0100#32) = .ok (.umull .al true 1 2 3 4) ∧
    decode (.arm 0b1110_00001_0_1_0_0001_0010_0011_1001_0100#32) = .ok (.umlal .al false 1 2 3 4) ∧
    decode (.arm 0b1110_00001_1_0_1_0001_0010_0011_1001_0100#32) = .ok (.smull .al true 1 2 3 4) ∧
    decode (.arm 0b1110_00001_1_1_0_0001_0010_0011_1001_0100#32) = .ok (.smlal .al false 1 2 3 4) := by decide +kernel

/-- R138 to R142: swap, MRS, MSR and BX. -/
theorem test_decode_psr_swap_bx :
    decode (.arm 0b1110_00010_0_00_0001_0010_0000_1001_0100#32) = .ok (.swp .al 1 2 0 4) ∧
    decode (.arm 0b1110_00010_1_00_0001_0010_0000_1001_0100#32) = .ok (.swpb .al 1 2 0 4) ∧
    decode (.arm 0b1110_00010_1_00_1111_0010_0000_0_00_0_0000#32) = .ok (.mrs .al true 15 2 0 0 0) ∧
    decode (.arm 0b1110_00010_0_10_1001_1111_0000_0_00_0_0100#32) = .ok (.msrReg .al false 9 15 0 0 4) ∧
    decode (.arm 0b1110_00110_1_10_1000_1111_0110_01011010#32) = .ok (.msrImm .al true 8 15 6 0x5A) ∧
    decode (.arm 0b1110_00010010_1111_1111_1111_0001_0100#32) = .ok (.bx .al 0xFFF 4) := by decide +kernel

/-- R143: `cond 000 P U I W L Rn Rd SBZ/immH 1 S H 1 Rm/immL`. -/
theorem test_decode_half_signed :
    decode (.arm 0b1110_000_1_0_0_1_0_0001_0010_0000_1_0_1_1_0100#32) = .ok (.strhReg .al true false true 1 2 0 4) ∧
    decode (.arm 0b1110_000_0_1_1_0_0_0001_0010_0110_1_0_1_1_0101#32) = .ok (.strhImm .al false true false 1 2 6 5) ∧
    decode (.arm 0b1110_000_1_1_0_0_1_0001_0010_0000_1_0_1_1_0100#32) = .ok (.ldrhReg .al true true false 1 2 0 4) ∧
    decode (.arm 0b1110_000_0_0_1_0_1_0001_0010_0110_1_0_1_1_0101#32) = .ok (.ldrhImm .al false false false 1 2 6 5) ∧
    decode (.arm 0b1110_000_1_0_0_1_1_0001_0010_0000_1_1_0_1_0100#32) = .ok (.ldrsbReg .al true false true 1 2 0 4) ∧
    decode (.arm 0b1110_000_0_1_1_0_1_0001_0010_0110_1_1_0_1_0101#32) = .ok (.ldrsbImm .al false true false 1 2 6 5) ∧
    decode (.arm 0b1110_000_1_1_0_0_1_0001_0010_0000_1_1_1_1_0100#32) = .ok (.ldrshReg .al true true false 1 2 0 4) ∧
    decode (.arm 0b1110_000_0_0_1_1_1_0001_0010_0110_1_1_1_1_0101#32) = .ok (.ldrshImm .al false false true 1 2 6 5) := by decide +kernel

/-- R144: `cond 01 I P U B W L Rn Rd imm12` with I = 0. -/
theorem test_decode_single_imm :
    decode (.arm 0b1110_01_0_1_0_0_1_1_0001_0010_011001011010#32) = .ok (.ldrImmPre .al false true 1 2 0x65A) ∧
    decode (.arm 0b1110_01_0_0_1_0_0_1_0001_0010_011001011010#32) = .ok (.ldrImmPost .al true 1 2 0x65A) ∧
    decode (.arm 0b1110_01_0_1_1_0_0_0_0001_0010_011001011010#32) = .ok (.strImmPre .al true false 1 2 0x65A) ∧
    decode (.arm 0b1110_01_0_0_0_0_0_0_0001_0010_011001011010#32) = .ok (.strImmPost .al false 1 2 0x65A) ∧
    decode (.arm 0b1110_01_0_1_0_1_1_1_0001_0010_011001011010#32) = .ok (.ldrbImmPre .al false true 1 2 0x65A) ∧
    decode (.arm 0b1110_01_0_0_1_1_0_1_0001_0010_011001011010#32) = .ok (.ldrbImmPost .al true 1 2 0x65A) ∧
    decode (.arm 0b1110_01_0_1_1_1_0_0_0001_0010_011001011010#32) = .ok (.strbImmPre .al true false 1 2 0x65A) ∧
    decode (.arm 0b1110_01_0_0_0_1_0_0_0001_0010_011001011010#32) = .ok (.strbImmPost .al false 1 2 0x65A) ∧
    decode (.arm 0b1110_01_0_0_1_0_1_1_0001_0010_011001011010#32) = .ok (.ldrtImm .al true 1 2 0x65A) ∧
    decode (.arm 0b1110_01_0_0_0_0_1_0_0001_0010_011001011010#32) = .ok (.strtImm .al false 1 2 0x65A) ∧
    decode (.arm 0b1110_01_0_0_1_1_1_1_0001_0010_011001011010#32) = .ok (.ldrbtImm .al true 1 2 0x65A) ∧
    decode (.arm 0b1110_01_0_0_0_1_1_0_0001_0010_011001011010#32) = .ok (.strbtImm .al false 1 2 0x65A) := by decide +kernel

/-- R144: `cond 01 I P U B W L Rn Rd shift_imm shift 0 Rm` with I = 1; R149. -/
theorem test_decode_single_reg :
    decode (.arm 0b1110_01_1_1_0_0_1_1_0001_0010_01001_00_0_0100#32) = .ok (.ldrRegPre .al false true 1 2 9 .lsl 4) ∧
    decode (.arm 0b1110_01_1_0_1_0_0_1_0001_0010_01001_01_0_0100#32) = .ok (.ldrRegPost .al true 1 2 9 .lsr 4) ∧
    decode (.arm 0b1110_01_1_1_1_0_0_0_0001_0010_01001_10_0_0100#32) = .ok (.strRegPre .al true false 1 2 9 .asr 4) ∧
    decode (.arm 0b1110_01_1_0_0_0_0_0_0001_0010_01001_11_0_0100#32) = .ok (.strRegPost .al false 1 2 9 .ror 4) ∧
    decode (.arm 0b1110_01_1_1_0_1_1_1_0001_0010_01001_00_0_0100#32) = .ok (.ldrbRegPre .al false true 1 2 9 .lsl 4) ∧
    decode (.arm 0b1110_01_1_0_1_1_0_1_0001_0010_01001_01_0_0100#32) = .ok (.ldrbRegPost .al true 1 2 9 .lsr 4) ∧
    decode (.arm 0b1110_01_1_1_1_1_0_0_0001_0010_01001_10_0_0100#32) = .ok (.strbRegPre .al true false 1 2 9 .asr 4) ∧
    decode (.arm 0b1110_01_1_0_0_1_0_0_0001_0010_01001_11_0_0100#32) = .ok (.strbRegPost .al false 1 2 9 .ror 4) ∧
    decode (.arm 0b1110_01_1_0_1_0_1_1_0001_0010_01001_00_0_0100#32) = .ok (.ldrtReg .al true 1 2 9 .lsl 4) ∧
    decode (.arm 0b1110_01_1_0_0_0_1_0_0001_0010_01001_01_0_0100#32) = .ok (.strtReg .al false 1 2 9 .lsr 4) ∧
    decode (.arm 0b1110_01_1_0_1_1_1_1_0001_0010_01001_10_0_0100#32) = .ok (.ldrbtReg .al true 1 2 9 .asr 4) ∧
    decode (.arm 0b1110_01_1_0_0_1_1_0_0001_0010_01001_11_0_0100#32) = .ok (.strbtReg .al false 1 2 9 .ror 4) ∧
    decode (.arm 0b1110_011_10101100001111010010_1_0110#32) = .ok (.und .al 0xAC3D2 6) := by decide +kernel

/-- R145 to R148: block transfers, branches, coprocessor and SWI. -/
theorem test_decode_block_branch_system :
    decode (.arm 0b1110_100_1_0_0_1_1_0001_1010010110010110#32) = .ok (.ldm .al true false true 1 0xA596) ∧
    decode (.arm 0b1110_100_0_1_0_0_0_0001_1010010110010110#32) = .ok (.stm .al false true false 1 0xA596) ∧
    decode (.arm 0b1110_100_1_1_1_0_1_0001_0010010110010110#32) = .ok (.ldmUsr .al true true false 1 0x2596) ∧
    decode (.arm 0b1110_100_0_1_1_1_1_0001_1010010110010110#32) = .ok (.ldmRet .al false true true 1 0x2596) ∧
    decode (.arm 0b1110_100_1_0_1_0_0_0001_1010010110010110#32) = .ok (.stmUsr .al true false false 1 0xA596) ∧
    decode (.arm 0b1110_101_0_101001011001011000111100#32) = .ok (.b .al 0xA5963C) ∧
    decode (.arm 0b1110_101_1_101001011001011000111100#32) = .ok (.bl .al 0xA5963C) ∧
    decode (.arm 0b1110_110_1_0_1_0_1_0001_0010_0011_01011010#32) = .ok (.ldc .al true false true false 1 2 3 0x5A) ∧
    decode (.arm 0b1110_110_0_1_0_1_0_0001_0010_0011_01011010#32) = .ok (.stc .al false true false true 1 2 3 0x5A) ∧
    decode (.arm 0b1110_1110_0101_0001_0010_0011_110_0_0100#32) = .ok (.cdp .al 5 1 2 3 6 4) ∧
    decode (.arm 0b1110_1110_101_0_0001_0010_0011_110_1_0100#32) = .ok (.mcr .al 5 1 2 3 6 4) ∧
    decode (.arm 0b1110_1110_101_1_0001_0010_0011_110_1_0100#32) = .ok (.mrc .al 5 1 2 3 6 4) ∧
    decode (.arm 0b1110_1111_101001011001011000111100#32) = .ok (.swi .al 0xA5963C) := by decide +kernel

/-- R160: T1 `000 op offset5 Rs Rd`, T2 `00011 I op Rn/imm3 Rs Rd`, T3 `001 op Rd offset8`. -/
theorem test_decode_thumb_shift_add :
    decode (.thumb 0b000_00_10110_011_101#16) = .ok (.tLslImm 22 3 5) ∧
    decode (.thumb 0b000_01_10110_011_101#16) = .ok (.tLsrImm 22 3 5) ∧
    decode (.thumb 0b000_10_10110_011_101#16) = .ok (.tAsrImm 22 3 5) ∧
    decode (.thumb 0b00011_0_0_110_011_101#16) = .ok (.tAddReg 6 3 5) ∧
    decode (.thumb 0b00011_0_1_110_011_101#16) = .ok (.tSubReg 6 3 5) ∧
    decode (.thumb 0b00011_1_0_110_011_101#16) = .ok (.tAddImm3 6 3 5) ∧
    decode (.thumb 0b00011_1_1_110_011_101#16) = .ok (.tSubImm3 6 3 5) ∧
    decode (.thumb 0b001_00_101_01011010#16) = .ok (.tMovImm 5 0x5A) ∧
    decode (.thumb 0b001_01_101_01011010#16) = .ok (.tCmpImm 5 0x5A) ∧
    decode (.thumb 0b001_10_101_01011010#16) = .ok (.tAddImm8 5 0x5A) ∧
    decode (.thumb 0b001_11_101_01011010#16) = .ok (.tSubImm8 5 0x5A) := by decide +kernel

/-- R160, R161: T4 `010000 op Rs Rd`, T5 `010001 op H1 H2 Rs Rd`. -/
theorem test_decode_thumb_alu :
    decode (.thumb 0b010000_0000_011_101#16) = .ok (.tAnd 3 5) ∧
    decode (.thumb 0b010000_0001_011_101#16) = .ok (.tEor 3 5) ∧
    decode (.thumb 0b010000_0010_011_101#16) = .ok (.tLslReg 3 5) ∧
    decode (.thumb 0b010000_0011_011_101#16) = .ok (.tLsrReg 3 5) ∧
    decode (.thumb 0b010000_0100_011_101#16) = .ok (.tAsrReg 3 5) ∧
    decode (.thumb 0b010000_0101_011_101#16) = .ok (.tAdc 3 5) ∧
    decode (.thumb 0b010000_0110_011_101#16) = .ok (.tSbc 3 5) ∧
    decode (.thumb 0b010000_0111_011_101#16) = .ok (.tRor 3 5) ∧
    decode (.thumb 0b010000_1000_011_101#16) = .ok (.tTst 3 5) ∧
    decode (.thumb 0b010000_1001_011_101#16) = .ok (.tNeg 3 5) ∧
    decode (.thumb 0b010000_1010_011_101#16) = .ok (.tCmpReg 3 5) ∧
    decode (.thumb 0b010000_1011_011_101#16) = .ok (.tCmn 3 5) ∧
    decode (.thumb 0b010000_1100_011_101#16) = .ok (.tOrr 3 5) ∧
    decode (.thumb 0b010000_1101_011_101#16) = .ok (.tMul 3 5) ∧
    decode (.thumb 0b010000_1110_011_101#16) = .ok (.tBic 3 5) ∧
    decode (.thumb 0b010000_1111_011_101#16) = .ok (.tMvn 3 5) ∧
    decode (.thumb 0b010001_00_1_0_011_101#16) = .ok (.tAddHi true false 3 5) ∧
    decode (.thumb 0b010001_01_0_1_011_101#16) = .ok (.tCmpHi false true 3 5) ∧
    decode (.thumb 0b010001_10_1_1_011_101#16) = .ok (.tMovHi true true 3 5) ∧
    decode (.thumb 0b010001_11_0_1_011_000#16) = .ok (.tBx 0 true 3 0) := by decide +kernel

/-- R160: T6 to T11. -/
theorem test_decode_thumb_memory :
    decode (.thumb 0b01001_101_01011010#16) = .ok (.tLdrPc 5 0x5A) ∧
    decode (.thumb 0b0101_0_0_0_110_011_101#16) = .ok (.tStrReg 6 3 5) ∧
    decode (.thumb 0b0101_0_1_0_110_011_101#16) = .ok (.tStrbReg 6 3 5) ∧
    decode (.thumb 0b0101_1_0_0_110_011_101#16) = .ok (.tLdrReg 6 3 5) ∧
    decode (.thumb 0b0101_1_1_0_110_011_101#16) = .ok (.tLdrbReg 6 3 5) ∧
    decode (.thumb 0b0101_0_0_1_110_011_101#16) = .ok (.tStrhReg 6 3 5) ∧
    decode (.thumb 0b0101_0_1_1_110_011_101#16) = .ok (.tLdsb 6 3 5) ∧
    decode (.thumb 0b0101_1_0_1_110_011_101#16) = .ok (.tLdrhReg 6 3 5) ∧
    decode (.thumb 0b0101_1_1_1_110_011_101#16) = .ok (.tLdsh 6 3 5) ∧
    decode (.thumb 0b011_0_0_10110_011_101#16) = .ok (.tStrImm 22 3 5) ∧
    decode (.thumb 0b011_0_1_10110_011_101#16) = .ok (.tLdrImm 22 3 5) ∧
    decode (.thumb 0b011_1_0_10110_011_101#16) = .ok (.tStrbImm 22 3 5) ∧
    decode (.thumb 0b011_1_1_10110_011_101#16) = .ok (.tLdrbImm 22 3 5) ∧
    decode (.thumb 0b1000_0_10110_011_101#16) = .ok (.tStrhImm 22 3 5) ∧
    decode (.thumb 0b1000_1_10110_011_101#16) = .ok (.tLdrhImm 22 3 5) ∧
    decode (.thumb 0b1001_0_101_01011010#16) = .ok (.tStrSp 5 0x5A) ∧
    decode (.thumb 0b1001_1_101_01011010#16) = .ok (.tLdrSp 5 0x5A) := by decide +kernel

/-- R160: T12 to T19. -/
theorem test_decode_thumb_address_block_branch :
    decode (.thumb 0b1010_0_101_01011010#16) = .ok (.tAddPc 5 0x5A) ∧
    decode (.thumb 0b1010_1_101_01011010#16) = .ok (.tAddSp 5 0x5A) ∧
    decode (.thumb 0b10110_000_1_1011010#16) = .ok (.tAddSpImm true 0x5A) ∧
    decode (.thumb 0b1011_0_10_1_01011010#16) = .ok (.tPush true 0x5A) ∧
    decode (.thumb 0b1011_1_10_0_01011010#16) = .ok (.tPop false 0x5A) ∧
    decode (.thumb 0b1100_0_101_01011010#16) = .ok (.tStmia 5 0x5A) ∧
    decode (.thumb 0b1100_1_101_01011010#16) = .ok (.tLdmia 5 0x5A) ∧
    decode (.thumb 0b1101_1011_10100101#16) = .ok (.tBCond .lt 0xA5) ∧
    decode (.thumb 0b11011_111_01011010#16) = .ok (.tSwi 0x5A) ∧
    decode (.thumb 0b11100_10110101101#16) = .ok (.tB 0x5AD) ∧
    decode (.thumb 0b1111_0_10110101101#16) = .ok (.tBlHi 0x5AD) ∧
    decode (.thumb 0b1111_1_10110101101#16) = .ok (.tBlLo 0x5AD) := by decide +kernel

-- One step of every instruction

/-- `ADDEQ R0, R0, #1 (Z = 1)` (95_test_vectors.md V2). -/
theorem test_add_imm_a :
    holds (fun s => s.x 0 == 0x6 && s.pc == 0x8000004)
      (boot |> inMode ⟨false, true, false, false, false, false, false, .sys⟩ |> placeCode (.arm 0x02800001) |> regs [(.sys, 0, 0x5)]) =
      true := by decide +kernel

/-- `cond = 1111 (0xF2800001), strict` (95_test_vectors.md V6). -/
theorem test_add_imm_b : stops (.unpredictable .condNv)
    (boot |> placeCode (.arm 0xF2800001) |> regs [(.sys, 0, 0x5)]) = true := by decide +kernel

/-- `BGT +0 with N = 1, V = 1, Z = 0 (taken)` (95_test_vectors.md V4). -/
theorem test_b_a :
    holds (fun s => s.pc == 0x8000008)
      (boot |> inMode ⟨true, false, false, true, false, false, false, .sys⟩ |> placeCode (.arm 0xCA000000)) =
      true := by decide +kernel

/-- `B with offset -3 at 0x08000000` (95_test_vectors.md V104). -/
theorem test_b_b : holds (fun s => s.pc == 0x7FFFFFC) (boot |> placeCode (.arm 0xEAFFFFFD)) = true := by decide +kernel

/-- `MOVS R0, R1, RRX (C = 0)` (95_test_vectors.md V13). -/
theorem test_mov_rsi_a :
    holds (fun s => s.x 0 == 0x40000000 && s.cpsr.n == false && s.cpsr.c == true)
      (boot |> inMode ⟨false, false, false, false, false, false, false, .sys⟩ |> placeCode (.arm 0xE1B00061) |> regs [(.sys, 1, 0x80000001)]) =
      true := by decide +kernel

/-- `MOVS PC, LR in Supervisor, SPSR_svc = 0x6000003F (return to Thumb)` (95_test_vectors.md V43). -/
theorem test_mov_rsi_b :
    holds (fun s => s.cpsr == ⟨false, true, true, false, false, false, true, .sys⟩ && s.pc == 0x8000102)
      (boot |> inMode ⟨false, false, false, false, true, false, false, .svc⟩ |> placeCode (.arm 0xE1B0F00E) |> regs [(.svc, 14, 0x8000102)] |> saved [(.svc, ⟨false, true, true, false, false, false, true, 31⟩)]) =
      true := by decide +kernel

/-- `MOVS R0, R1, LSL R2, R2 = 33` (95_test_vectors.md V15). -/
theorem test_mov_rsr_a :
    holds (fun s => s.x 0 == 0x0 && s.cpsr.z == true && s.cpsr.c == false)
      (boot |> inMode ⟨false, false, true, false, false, false, false, .sys⟩ |> placeCode (.arm 0xE1B00211) |> regs [(.sys, 1, 0x1), (.sys, 2, 0x21)]) =
      true := by decide +kernel

/-- `MOVS R0, R1, ROR R2, R2 = 4` (95_test_vectors.md V20). -/
theorem test_mov_rsr_b : holds (fun s => s.x 0 == 0xF0000000 && s.cpsr.n == true && s.cpsr.c == true)
    (boot |> placeCode (.arm 0xE1B00271) |> regs [(.sys, 1, 0xF), (.sys, 2, 0x4)]) = true := by decide +kernel

/-- `ANDS R0, R1, #0xFF000000 (imm8 0xFF, rotate 4)` (95_test_vectors.md V22). -/
theorem test_and_imm :
    holds (fun s => s.x 0 == 0x7F000000 && s.cpsr.n == false && s.cpsr.c == true)
      (boot |> inMode ⟨false, false, false, false, false, false, false, .sys⟩ |> placeCode (.arm 0xE21104FF) |> regs [(.sys, 1, 0x7F000000)]) =
      true := by decide +kernel

/-- `ADD R0, R1, R15, LSL #0 at 0x08000000 (R15 = pc + 8)` (95_test_vectors.md V23). -/
theorem test_add_rsi_a : holds (fun s => s.x 0 == 0x8000009)
    (boot |> placeCode (.arm 0xE081000F) |> regs [(.sys, 1, 0x1)]) = true := by decide +kernel

/-- `ADDS R0, R1, R2: 0xFFFFFFFF + 1` (95_test_vectors.md V24). -/
theorem test_add_rsi_b :
    holds (fun s => s.x 0 == 0x0 && s.cpsr.n == false && s.cpsr.z == true && s.cpsr.c == true && s.cpsr.v == false)
      (boot |> placeCode (.arm 0xE0910002) |> regs [(.sys, 1, 0xFFFFFFFF), (.sys, 2, 0x1)]) =
      true := by decide +kernel

/-- `SUBS R0, R1, R2: 0x80000000 - 1` (95_test_vectors.md V25). -/
theorem test_sub_rsi_a :
    holds (fun s => s.x 0 == 0x7FFFFFFF && s.cpsr.n == false && s.cpsr.z == false && s.cpsr.c == true && s.cpsr.v == true)
      (boot |> placeCode (.arm 0xE0510002) |> regs [(.sys, 1, 0x80000000), (.sys, 2, 0x1)]) =
      true := by decide +kernel

/-- `SUBS R0, R1, R2: equal` (95_test_vectors.md V26). -/
theorem test_sub_rsi_b : holds (fun s => s.x 0 == 0x0 && s.cpsr.z == true && s.cpsr.c == true && s.cpsr.v == false)
    (boot |> placeCode (.arm 0xE0510002) |> regs [(.sys, 1, 0x7), (.sys, 2, 0x7)]) = true := by decide +kernel

/-- `RSBS R0, R1, #0: R1 = 0x80000000` (95_test_vectors.md V27). -/
theorem test_rsb_imm_a :
    holds (fun s => s.x 0 == 0x80000000 && s.cpsr.n == true && s.cpsr.z == false && s.cpsr.c == false && s.cpsr.v == true)
      (boot |> placeCode (.arm 0xE2710000) |> regs [(.sys, 1, 0x80000000)]) =
      true := by decide +kernel

/-- `RSBS R0, R1, #0: R1 = 0` (95_test_vectors.md V28). -/
theorem test_rsb_imm_b : holds (fun s => s.x 0 == 0x0 && s.cpsr.z == true && s.cpsr.c == true && s.cpsr.v == false)
    (boot |> placeCode (.arm 0xE2710000) |> regs [(.sys, 1, 0x0)]) = true := by decide +kernel

/-- `ADCS R0, R1, R2: 0x7FFFFFFF + 0 + C(1)` (95_test_vectors.md V29). -/
theorem test_adc_rsi :
    holds (fun s => s.x 0 == 0x80000000 && s.cpsr.n == true && s.cpsr.c == false && s.cpsr.v == true)
      (boot |> inMode ⟨false, false, true, false, false, false, false, .sys⟩ |> placeCode (.arm 0xE0B10002) |> regs [(.sys, 1, 0x7FFFFFFF), (.sys, 2, 0x0)]) =
      true := by decide +kernel

/-- `SBCS R0, R1, R2: 0 - 0 - 1 (C = 0)` (95_test_vectors.md V30). -/
theorem test_sbc_rsi :
    holds (fun s => s.x 0 == 0xFFFFFFFF && s.cpsr.n == true && s.cpsr.c == false && s.cpsr.v == false)
      (boot |> inMode ⟨false, false, false, false, false, false, false, .sys⟩ |> placeCode (.arm 0xE0D10002) |> regs [(.sys, 1, 0x0), (.sys, 2, 0x0)]) =
      true := by decide +kernel

/-- `RSCS R0, R1, #0: C = 0, R1 = 5` (95_test_vectors.md V31). -/
theorem test_rsc_imm :
    holds (fun s => s.x 0 == 0xFFFFFFFA && s.cpsr.n == true && s.cpsr.c == false && s.cpsr.v == false)
      (boot |> inMode ⟨false, false, false, false, false, false, false, .sys⟩ |> placeCode (.arm 0xE2F10000) |> regs [(.sys, 1, 0x5)]) =
      true := by decide +kernel

/-- `CMP R0, R1: 1 vs 2` (95_test_vectors.md V32). -/
theorem test_cmp_rsi_a :
    holds (fun s => s.x 0 == 0x1 && s.cpsr.n == true && s.cpsr.z == false && s.cpsr.c == false && s.cpsr.v == false)
      (boot |> placeCode (.arm 0xE1500001) |> regs [(.sys, 0, 0x1), (.sys, 1, 0x2)]) =
      true := by decide +kernel

/-- `CMP R0, R1: 0x7FFFFFFF vs 0x80000000 (GT holds)` (95_test_vectors.md V33). -/
theorem test_cmp_rsi_b :
    holds (fun s => s.cpsr.n == true && s.cpsr.z == false && s.cpsr.c == false && s.cpsr.v == true)
      (boot |> placeCode (.arm 0xE1500001) |> regs [(.sys, 0, 0x7FFFFFFF), (.sys, 1, 0x80000000)]) =
      true := by decide +kernel

/-- `CMN R0, R1: 0x80000000 + 0x80000000` (95_test_vectors.md V34). -/
theorem test_cmn_rsi :
    holds (fun s => s.cpsr.n == false && s.cpsr.z == true && s.cpsr.c == true && s.cpsr.v == true)
      (boot |> placeCode (.arm 0xE1700001) |> regs [(.sys, 0, 0x80000000), (.sys, 1, 0x80000000)]) =
      true := by decide +kernel

/-- `TST R0, R1, LSL #1` (95_test_vectors.md V35). -/
theorem test_tst_rsi :
    holds (fun s => s.cpsr.n == false && s.cpsr.z == true && s.cpsr.c == true && s.cpsr.v == true)
      (boot |> inMode ⟨false, false, false, true, false, false, false, .sys⟩ |> placeCode (.arm 0xE1100081) |> regs [(.sys, 0, 0xFFFFFFFF), (.sys, 1, 0x80000000)]) =
      true := by decide +kernel

/-- `TEQ R0, #0 (C kept, rotate 0)` (95_test_vectors.md V36). -/
theorem test_teq_imm :
    holds (fun s => s.cpsr.n == true && s.cpsr.z == false && s.cpsr.c == true)
      (boot |> inMode ⟨false, false, true, false, false, false, false, .sys⟩ |> placeCode (.arm 0xE3300000) |> regs [(.sys, 0, 0x80000000)]) =
      true := by decide +kernel

/-- `ORRS R0, R0, #0x80000000 (imm8 2, rotate 1)` (95_test_vectors.md V37). -/
theorem test_orr_imm :
    holds (fun s => s.x 0 == 0x80000000 && s.cpsr.n == true && s.cpsr.c == true)
      (boot |> inMode ⟨false, false, false, false, false, false, false, .sys⟩ |> placeCode (.arm 0xE3900102) |> regs [(.sys, 0, 0x0)]) =
      true := by decide +kernel

/-- `BICS R0, R0, #0xFF` (95_test_vectors.md V38). -/
theorem test_bic_imm :
    holds (fun s => s.x 0 == 0x0 && s.cpsr.z == true && s.cpsr.c == true)
      (boot |> inMode ⟨false, false, true, false, false, false, false, .sys⟩ |> placeCode (.arm 0xE3D000FF) |> regs [(.sys, 0, 0xFF)]) =
      true := by decide +kernel

/-- `MVNS R0, R1` (95_test_vectors.md V39). -/
theorem test_mvn_rsi : holds (fun s => s.x 0 == 0x0 && s.cpsr.n == false && s.cpsr.z == true)
    (boot |> placeCode (.arm 0xE1F00001) |> regs [(.sys, 1, 0xFFFFFFFF)]) = true := by decide +kernel

/-- `EOR R0, R0, R0 (S = 0)` (95_test_vectors.md V40). -/
theorem test_eor_rsi :
    holds (fun s => s.x 0 == 0x0 && s.cpsr.n == true && s.cpsr.z == false)
      (boot |> inMode ⟨true, false, false, false, false, false, false, .sys⟩ |> placeCode (.arm 0xE0200000) |> regs [(.sys, 0, 0x1234)]) =
      true := by decide +kernel

/-- `MUL R0, R1, R2: 0xFFFFFFFF squared` (95_test_vectors.md V46). -/
theorem test_mul_a :
    holds (fun s => s.x 0 == 0x1)
      (boot |> placeCode (.arm 0xE0000291) |> regs [(.sys, 1, 0xFFFFFFFF), (.sys, 2, 0xFFFFFFFF)]) =
      true := by decide +kernel

/-- `MUL R0, R0, R1 (Rd = Rm), strict` (95_test_vectors.md V48). -/
theorem test_mul_b : stops (.unpredictable .mulRdRm)
    (boot |> placeCode (.arm 0xE0000190) |> regs [(.sys, 0, 0x2), (.sys, 1, 0x3)]) = true := by decide +kernel

/-- `MLAS R0, R1, R2, R3: 2 * 0x80000000 + 0` (95_test_vectors.md V47). -/
theorem test_mla :
    holds (fun s => s.x 0 == 0x0 && s.cpsr.n == false && s.cpsr.z == true && s.cpsr.v == true)
      (boot |> inMode ⟨false, false, false, true, false, false, false, .sys⟩ |> placeCode (.arm 0xE0303291) |> regs [(.sys, 1, 0x2), (.sys, 2, 0x80000000), (.sys, 3, 0x0)]) =
      true := by decide +kernel

/-- `UMULLS R0, R1, R2, R3: 0xFFFFFFFF squared` (95_test_vectors.md V49). -/
theorem test_umull :
    holds (fun s => s.x 1 == 0xFFFFFFFE && s.x 0 == 0x1 && s.cpsr.n == true && s.cpsr.z == false)
      (boot |> placeCode (.arm 0xE0910392) |> regs [(.sys, 2, 0xFFFFFFFF), (.sys, 3, 0xFFFFFFFF)]) =
      true := by decide +kernel

/-- `SMULL R0, R1, R2, R3: 0x80000000 squared` (95_test_vectors.md V50). -/
theorem test_smull_a :
    holds (fun s => s.x 1 == 0x40000000 && s.x 0 == 0x0)
      (boot |> placeCode (.arm 0xE0C10392) |> regs [(.sys, 2, 0x80000000), (.sys, 3, 0x80000000)]) =
      true := by decide +kernel

/-- `SMULL R0, R1, R2, R3: -1 * -1` (95_test_vectors.md V51). -/
theorem test_smull_b :
    holds (fun s => s.x 1 == 0x0 && s.x 0 == 0x1)
      (boot |> placeCode (.arm 0xE0C10392) |> regs [(.sys, 2, 0xFFFFFFFF), (.sys, 3, 0xFFFFFFFF)]) =
      true := by decide +kernel

/-- `UMLAL R0, R1, R2, R3: 2^64 - 1 + 1 wraps` (95_test_vectors.md V52). -/
theorem test_umlal :
    holds (fun s => s.x 0 == 0x0 && s.x 1 == 0x0)
      (boot |> placeCode (.arm 0xE0A10392) |> regs [(.sys, 0, 0xFFFFFFFF), (.sys, 1, 0xFFFFFFFF), (.sys, 2, 0x1), (.sys, 3, 0x1)]) =
      true := by decide +kernel

/-- `SMLALS R0, R1, R2, R3: -2 * 3 + 5` (95_test_vectors.md V53). -/
theorem test_smlal :
    holds (fun s => s.x 0 == 0xFFFFFFFF && s.x 1 == 0xFFFFFFFF && s.cpsr.n == true && s.cpsr.z == false)
      (boot |> placeCode (.arm 0xE0F10392) |> regs [(.sys, 0, 0x5), (.sys, 1, 0x0), (.sys, 2, 0xFFFFFFFE), (.sys, 3, 0x3)]) =
      true := by decide +kernel

/-- `MRS R0, SPSR in IRQ mode` (95_test_vectors.md V54). -/
theorem test_mrs_a :
    holds (fun s => s.x 0 == 0x6000001F)
      (boot |> inMode ⟨false, false, false, false, true, false, false, .irq⟩ |> placeCode (.arm 0xE14F0000) |> saved [(.irq, ⟨false, true, true, false, false, false, false, 31⟩)]) =
      true := by decide +kernel

/-- `MRS R0, SPSR in System mode, strict` (95_test_vectors.md V55). -/
theorem test_mrs_b : stops (.unpredictable .mrsSpsrNospsr)
    (boot |> placeCode (.arm 0xE14F0000)) = true := by decide +kernel

/-- `MSR CPSR_fc, R0 in User mode: flags only` (95_test_vectors.md V57). -/
theorem test_msr_reg_a :
    holds (fun s => s.cpsr == ⟨true, true, true, true, false, false, false, .usr⟩)
      (boot |> inMode ⟨false, false, false, false, false, false, false, .usr⟩ |> placeCode (.arm 0xE129F000) |> regs [(.usr, 0, 0xF000001F)]) =
      true := by decide +kernel

/-- `MSR SPSR_fc, R0 in Supervisor, reserved bits ignored` (95_test_vectors.md V59). -/
theorem test_msr_reg_b :
    holds (fun s => s.spsr[2] == ⟨true, true, true, true, false, false, true, 31⟩)
      (boot |> inMode ⟨false, false, false, false, true, true, false, .svc⟩ |> placeCode (.arm 0xE169F000) |> regs [(.svc, 0, 0xFFFFFF3F)] |> saved [(.svc, ⟨false, false, false, false, false, false, false, 0⟩)]) =
      true := by decide +kernel

/-- `MSR CPSR_c, #0xD2 in Supervisor` (95_test_vectors.md V58). -/
theorem test_msr_imm_a :
    holds (fun s => s.cpsr == ⟨false, true, true, false, true, true, false, .irq⟩)
      (boot |> inMode ⟨false, true, true, false, true, true, false, .svc⟩ |> placeCode (.arm 0xE321F0D2)) =
      true := by decide +kernel

/-- `MSR CPSR_c, #0x3F in System (changes T), strict` (95_test_vectors.md V60). -/
theorem test_msr_imm_b : stops (.unpredictable .msrT) (boot |> placeCode (.arm 0xE321F03F)) = true := by decide +kernel

/-- `SWP R0, R1, [R2], R2 unaligned` (95_test_vectors.md V63). -/
theorem test_swp_a :
    holds (fun s => s.x 0 == 0xDDAABBCC && valueAt s .word 0x3000000 == 0x11223344)
      (boot |> placeCode (.arm 0xE1020091) |> data [(.word, 0x03000000, 0xAABBCCDD)] |> regs [(.sys, 1, 0x11223344), (.sys, 2, 0x3000001)]) =
      true := by decide +kernel

/-- `SWP R0, R0, [R2] (Rd = Rm)` (95_test_vectors.md V64). -/
theorem test_swp_b :
    holds (fun s => s.x 0 == 0x9 && valueAt s .word 0x3000000 == 0x5)
      (boot |> placeCode (.arm 0xE1020090) |> data [(.word, 0x03000000, 0x9)] |> regs [(.sys, 0, 0x5), (.sys, 2, 0x3000000)]) =
      true := by decide +kernel

/-- `SWPB R0, R1, [R2]` (95_test_vectors.md V65). -/
theorem test_swpb :
    holds (fun s => s.x 0 == 0x80 && valueAt s .word 0x3000000 == 0xFF000000)
      (boot |> placeCode (.arm 0xE1420091) |> data [(.word, 0x03000000, 0x80000000)] |> regs [(.sys, 1, 0x1FF), (.sys, 2, 0x3000003)]) =
      true := by decide +kernel

/-- `LDR R0, [R1], R1 = 0x03000003` (95_test_vectors.md V69). -/
theorem test_ldr_imm_pre_a :
    holds (fun s => s.x 0 == 0xBBCCDDAA)
      (boot |> placeCode (.arm 0xE5910000) |> data [(.word, 0x03000000, 0xAABBCCDD)] |> regs [(.sys, 1, 0x3000003)]) =
      true := by decide +kernel

/-- `LDR PC, [R1] (bits 1:0 dropped, stays ARM)` (95_test_vectors.md V74). -/
theorem test_ldr_imm_pre_b :
    holds (fun s => s.cpsr == ⟨false, false, false, false, false, false, false, .sys⟩ && s.pc == 0x8000100)
      (boot |> placeCode (.arm 0xE591F000) |> data [(.word, 0x03000000, 0x8000103)] |> regs [(.sys, 1, 0x3000000)]) =
      true := by decide +kernel

/-- `LDR R0, [R1, R2, LSL #2]` (95_test_vectors.md V70). -/
theorem test_ldr_reg_pre :
    holds (fun s => s.x 0 == 0x55 && s.x 1 == 0x3000000)
      (boot |> placeCode (.arm 0xE7910102) |> data [(.word, 0x03000004, 0x55)] |> regs [(.sys, 1, 0x3000000), (.sys, 2, 0x1)]) =
      true := by decide +kernel

/-- `LDR R0, [R1], #4` (95_test_vectors.md V72). -/
theorem test_ldr_imm_post_a :
    holds (fun s => s.x 0 == 0x99 && s.x 1 == 0x3000004)
      (boot |> placeCode (.arm 0xE4910004) |> data [(.word, 0x03000000, 0x99)] |> regs [(.sys, 1, 0x3000000)]) =
      true := by decide +kernel

/-- `LDR R1, [R1], #4 (write-back to Rd), strict` (95_test_vectors.md V82). -/
theorem test_ldr_imm_post_b :
    stops (.unpredictable .ldrWbRd)
      (boot |> placeCode (.arm 0xE4911004) |> data [(.word, 0x03000000, 0x1)] |> regs [(.sys, 1, 0x3000000)]) =
      true := by decide +kernel

/-- `LDR R0, [R1], -R2, ASR #32 (offset 0xFFFFFFFF, post)` (95_test_vectors.md V73). -/
theorem test_ldr_reg_post :
    holds (fun s => s.x 0 == 0x99 && s.x 1 == 0x3000001)
      (boot |> placeCode (.arm 0xE6110042) |> data [(.word, 0x03000000, 0x99)] |> regs [(.sys, 1, 0x3000000), (.sys, 2, 0x80000000)]) =
      true := by decide +kernel

/-- `STR PC, [R1] at 0x08000000` (95_test_vectors.md V76). -/
theorem test_str_imm_pre_a : holds (fun s => valueAt s .word 0x3000000 == 0x800000C)
    (boot |> placeCode (.arm 0xE581F000) |> regs [(.sys, 1, 0x3000000)]) = true := by decide +kernel

/-- `STR R0, [R1, #1] (unaligned store)` (95_test_vectors.md V77). -/
theorem test_str_imm_pre_b :
    holds (fun s => valueAt s .word 0x3000000 == 0x11223344)
      (boot |> placeCode (.arm 0xE5810001) |> regs [(.sys, 0, 0x11223344), (.sys, 1, 0x3000000)]) =
      true := by decide +kernel

/-- `LDRB R0, [R1, #-1]` (95_test_vectors.md V78). -/
theorem test_ldrb_imm_pre :
    holds (fun s => s.x 0 == 0xAA)
      (boot |> placeCode (.arm 0xE5510001) |> data [(.word, 0x03000000, 0xAABBCCDD)] |> regs [(.sys, 1, 0x3000004)]) =
      true := by decide +kernel

/-- `STRB R0, [R1] to VRAM BG (duplicated)` (95_test_vectors.md V79). -/
theorem test_strb_imm_pre_a :
    holds (fun s => valueAt s .half 0x6000000 == 0xABAB)
      (boot |> placeCode (.arm 0xE5C10000) |> data [(.half, 0x06000000, 0x0)] |> regs [(.sys, 0, 0xAB), (.sys, 1, 0x6000001)]) =
      true := by decide +kernel

/-- `STRB R0, [R1] to OAM (ignored)` (95_test_vectors.md V80). -/
theorem test_strb_imm_pre_b :
    holds (fun s => valueAt s .half 0x7000000 == 0x1234)
      (boot |> placeCode (.arm 0xE5C10000) |> data [(.half, 0x07000000, 0x1234)] |> regs [(.sys, 0, 0xAB), (.sys, 1, 0x7000001)]) =
      true := by decide +kernel

/-- `LDRT R0, [R1], #4 in User mode` (95_test_vectors.md V83). -/
theorem test_ldrt_imm :
    holds (fun s => s.x 0 == 0x5 && s.x 1 == 0x3000004)
      (boot |> inMode ⟨false, false, false, false, false, false, false, .usr⟩ |> placeCode (.arm 0xE4B10004) |> data [(.word, 0x03000000, 0x5)] |> regs [(.usr, 1, 0x3000000)]) =
      true := by decide +kernel

/-- `LDRH R0, [R1, #2]!` (95_test_vectors.md V84). -/
theorem test_ldrh_imm_a :
    holds (fun s => s.x 0 == 0xAABB && s.x 1 == 0x3000002)
      (boot |> placeCode (.arm 0xE1F100B2) |> data [(.word, 0x03000000, 0xAABBCCDD)] |> regs [(.sys, 1, 0x3000000)]) =
      true := by decide +kernel

/-- `LDRH R0, [R1] with R1 odd, strict` (95_test_vectors.md V89). -/
theorem test_ldrh_imm_b : stops (.unpredictable .ldrhUnaligned)
    (boot |> placeCode (.arm 0xE1D100B0) |> regs [(.sys, 1, 0x3000001)]) = true := by decide +kernel

/-- `LDRSH R0, [R1], #2` (95_test_vectors.md V85). -/
theorem test_ldrsh_imm :
    holds (fun s => s.x 0 == 0xFFFF8001 && s.x 1 == 0x3000002)
      (boot |> placeCode (.arm 0xE0D100F2) |> data [(.half, 0x03000000, 0x8001)] |> regs [(.sys, 1, 0x3000000)]) =
      true := by decide +kernel

/-- `LDRSB R0, [R1, #1]` (95_test_vectors.md V86). -/
theorem test_ldrsb_imm_a :
    holds (fun s => s.x 0 == 0x7F)
      (boot |> placeCode (.arm 0xE1D100D1) |> data [(.word, 0x03000000, 0x7F00)] |> regs [(.sys, 1, 0x3000000)]) =
      true := by decide +kernel

/-- `LDRSB R0, [R1, #1], byte 0x80` (95_test_vectors.md V87). -/
theorem test_ldrsb_imm_b :
    holds (fun s => s.x 0 == 0xFFFFFF80)
      (boot |> placeCode (.arm 0xE1D100D1) |> data [(.word, 0x03000000, 0x8000)] |> regs [(.sys, 1, 0x3000000)]) =
      true := by decide +kernel

/-- `STRH R0, [R1, -R2]` (95_test_vectors.md V88). -/
theorem test_strh_reg :
    holds (fun s => valueAt s .word 0x3000000 == 0xBEEF0000)
      (boot |> placeCode (.arm 0xE10100B2) |> data [(.word, 0x03000000, 0x0)] |> regs [(.sys, 0, 0x1234BEEF), (.sys, 1, 0x3000004), (.sys, 2, 0x2)]) =
      true := by decide +kernel

/-- `STMIB R0!, {R1, R2}` (95_test_vectors.md V90). -/
theorem test_stm_a :
    holds (fun s => s.x 0 == 0x3000008 && valueAt s .word 0x3000004 == 0x1 && valueAt s .word 0x3000008 == 0x2)
      (boot |> placeCode (.arm 0xE9A00006) |> regs [(.sys, 0, 0x3000000), (.sys, 1, 0x1), (.sys, 2, 0x2)]) =
      true := by decide +kernel

/-- `STMIA R0!, {R0, R1} (base lowest: original stored)` (95_test_vectors.md V93). -/
theorem test_stm_b :
    holds (fun s => s.x 0 == 0x3000008 && valueAt s .word 0x3000000 == 0x3000000 && valueAt s .word 0x3000004 == 0x7)
      (boot |> placeCode (.arm 0xE8A00003) |> regs [(.sys, 0, 0x3000000), (.sys, 1, 0x7)]) =
      true := by decide +kernel

/-- `LDMDB R0!, {R1, R2}` (95_test_vectors.md V92). -/
theorem test_ldm_a :
    holds (fun s => s.x 1 == 0x8 && s.x 2 == 0xC && s.x 0 == 0x3000008)
      (boot |> placeCode (.arm 0xE9300006) |> data [(.word, 0x03000008, 0x8), (.word, 0x0300000C, 0xC)] |> regs [(.sys, 0, 0x3000010)]) =
      true := by decide +kernel

/-- `LDMIA R0!, {R1, PC}` (95_test_vectors.md V97). -/
theorem test_ldm_b :
    holds (fun s => s.cpsr == ⟨false, false, false, false, false, false, false, .sys⟩ && s.x 1 == 0x1 && s.pc == 0x8000200 && s.x 0 == 0x3000008)
      (boot |> placeCode (.arm 0xE8B08002) |> data [(.word, 0x03000000, 0x1), (.word, 0x03000004, 0x8000203)] |> regs [(.sys, 0, 0x3000000)]) =
      true := by decide +kernel

/-- `LDMFD SP!, {R0, PC}^ in IRQ, SPSR_irq Thumb` (95_test_vectors.md V100). -/
theorem test_ldm_ret :
    holds (fun s => s.cpsr == ⟨false, true, true, false, false, false, true, .sys⟩ && s.x 0 == 0x11 && s.pc == 0x8000102 && s.regOf .irq 13 == 0x3007FA8)
      (boot |> inMode ⟨false, false, false, false, true, false, false, .irq⟩ |> placeCode (.arm 0xE8FD8001) |> data [(.word, 0x03007FA0, 0x11), (.word, 0x03007FA4, 0x8000103)] |> regs [(.irq, 13, 0x3007FA0)] |> saved [(.irq, ⟨false, true, true, false, false, false, true, 31⟩)]) =
      true := by decide +kernel

/-- `STMIA R0, {R13, R14}^ in IRQ mode` (95_test_vectors.md V101). -/
theorem test_stm_usr :
    holds (fun s => valueAt s .word 0x3000000 == 0x3007F00 && valueAt s .word 0x3000004 == 0x8000001)
      (boot |> inMode ⟨false, false, false, false, true, false, false, .irq⟩ |> placeCode (.arm 0xE8C06000) |> regs [(.irq, 0, 0x3000000), (.usr, 13, 0x3007F00), (.usr, 14, 0x8000001), (.irq, 13, 0x3007FA0), (.irq, 14, 0x1234)]) =
      true := by decide +kernel

/-- `LDMIA R0, {R8}^ in FIQ mode (user R8 written)` (95_test_vectors.md V102). -/
theorem test_ldm_usr :
    holds (fun s => s.regOf .usr 8 == 0x77 && s.regOf .fiq 8 == 0x42)
      (boot |> inMode ⟨false, false, false, false, true, false, false, .fiq⟩ |> placeCode (.arm 0xE8D00100) |> data [(.word, 0x03000000, 0x77)] |> regs [(.fiq, 0, 0x3000000), (.usr, 8, 0x0), (.fiq, 8, 0x42)]) =
      true := by decide +kernel

/-- `BL +0x3E words` (95_test_vectors.md V105). -/
theorem test_bl_a : holds (fun s => s.x 14 == 0x8000004 && s.pc == 0x8000100)
    (boot |> placeCode (.arm 0xEB00003E)) = true := by decide +kernel

/-- `BL in IRQ mode writes R14_irq` (95_test_vectors.md V107). -/
theorem test_bl_b :
    holds (fun s => s.regOf .irq 14 == 0x8000004 && s.regOf .usr 14 == 0x55 && s.pc == 0x8000008)
      (boot |> inMode ⟨false, false, false, false, true, false, false, .irq⟩ |> placeCode (.arm 0xEB000000) |> regs [(.usr, 14, 0x55)]) =
      true := by decide +kernel

/-- `BX R0 to Thumb` (95_test_vectors.md V108). -/
theorem test_bx_a :
    holds (fun s => s.cpsr == ⟨false, false, false, false, false, false, true, .sys⟩ && s.pc == 0x8000100)
      (boot |> placeCode (.arm 0xE12FFF10) |> regs [(.sys, 0, 0x8000101)]) =
      true := by decide +kernel

/-- `BX R0 with R0 = 0x08000102, strict` (95_test_vectors.md V110). -/
theorem test_bx_b : stops (.unpredictable .bxArmUnaligned)
    (boot |> placeCode (.arm 0xE12FFF10) |> regs [(.sys, 0, 0x8000102)]) = true := by decide +kernel

/-- `SWI #0x123456 in User mode, flags set` (95_test_vectors.md V111). -/
theorem test_swi_a :
    holds (fun s => s.cpsr == ⟨true, true, true, true, true, false, false, .svc⟩ && s.pc == 0x8 && s.spsr[2] == ⟨true, true, true, true, false, false, false, 16⟩ && s.regOf .svc 14 == 0x8000004)
      (boot |> inMode ⟨true, true, true, true, false, false, false, .usr⟩ |> placeCode (.arm 0xEF123456)) =
      true := by decide +kernel

/-- `SWINE with Z = 1 (not executed)` (95_test_vectors.md V112). -/
theorem test_swi_b :
    holds (fun s => s.cpsr == ⟨false, true, false, false, false, false, false, .sys⟩ && s.pc == 0x8000004)
      (boot |> inMode ⟨false, true, false, false, false, false, false, .sys⟩ |> placeCode (.arm 0x1F000000)) =
      true := by decide +kernel

/-- `UND row 0xE6000010` (95_test_vectors.md V113). -/
theorem test_und_a :
    holds (fun s => s.cpsr == ⟨false, false, false, false, true, false, false, .und⟩ && s.pc == 0x4 && s.spsr[4] == ⟨false, false, false, false, false, false, false, 31⟩ && s.regOf .und 14 == 0x8000004)
      (boot |> inMode ⟨false, false, false, false, false, false, false, .sys⟩ |> placeCode (.arm 0xE6000010)) =
      true := by decide +kernel

/-- `UND with failing condition 0x06000010, Z = 0` (95_test_vectors.md V116). -/
theorem test_und_b :
    holds (fun s => s.cpsr == ⟨false, false, false, false, false, false, false, .sys⟩ && s.pc == 0x8000004)
      (boot |> inMode ⟨false, false, false, false, false, false, false, .sys⟩ |> placeCode (.arm 0x06000010)) =
      true := by decide +kernel

/-- `unallocated multiply space 0xE0400090 (R170 d)` (95_test_vectors.md V114). -/
theorem test_no_row_a :
    holds (fun s => s.cpsr == ⟨false, false, false, false, true, false, false, .und⟩ && s.pc == 0x4 && s.regOf .und 14 == 0x8000004)
      (boot |> inMode ⟨false, false, false, false, false, false, false, .sys⟩ |> placeCode (.arm 0xE0400090)) =
      true := by decide +kernel

/-- `B<cond> with cond 1110: 0xDE00 is Undefined` (95_test_vectors.md V162). -/
theorem test_no_row_b :
    holds (fun s => s.cpsr == ⟨false, false, false, false, true, false, false, .und⟩ && s.pc == 0x4 && s.regOf .und 14 == 0x8000002 && s.spsr[4] == ⟨false, false, false, false, false, false, true, 31⟩)
      (boot |> inMode ⟨false, false, false, false, false, false, true, .sys⟩ |> placeCode (.thumb 0xDE00)) =
      true := by decide +kernel

/-- `CDP p1, ... with CP_MODE = nop` (95_test_vectors.md V118). -/
theorem test_cdp : holds (fun s => s.pc == 0x8000004 && s.x 0 == 0x3)
    (boot |> placeCode (.arm 0xEE000100) |> regs [(.sys, 0, 0x3)]) = true := by decide +kernel

/-- `LDC p1, c0, [R1], #4 (post, W = 1) with CP_MODE = nop` (95_test_vectors.md V119). -/
theorem test_ldc : holds (fun s => s.x 1 == 0x3000000 && s.pc == 0x8000004)
    (boot |> placeCode (.arm 0xECB10101) |> regs [(.sys, 1, 0x3000000)]) = true := by decide +kernel

/-- `MRC p15, 0, R15, c0, c0, 0 with CP_MODE = nop (flags kept)` (95_test_vectors.md V120). -/
theorem test_mrc :
    holds (fun s => s.cpsr == ⟨true, false, false, false, false, false, false, .sys⟩ && s.pc == 0x8000004)
      (boot |> inMode ⟨true, false, false, false, false, false, false, .sys⟩ |> placeCode (.arm 0xEE10FF10)) =
      true := by decide +kernel

/-- `LSL R0, R1, #0 (C kept)` (95_test_vectors.md V121). -/
theorem test_t_lsl_imm :
    holds (fun s => s.x 0 == 0x80000000 && s.pc == 0x8000002 && s.cpsr.n == true && s.cpsr.c == true)
      (boot |> inMode ⟨false, false, true, false, false, false, true, .sys⟩ |> placeCode (.thumb 0x0008) |> regs [(.sys, 1, 0x80000000)]) =
      true := by decide +kernel

/-- `LSR R0, R1, #32` (95_test_vectors.md V122). -/
theorem test_t_lsr_imm :
    holds (fun s => s.x 0 == 0x0 && s.cpsr.z == true && s.cpsr.c == true)
      (boot |> inMode ⟨false, false, false, false, false, false, true, .sys⟩ |> placeCode (.thumb 0x0808) |> regs [(.sys, 1, 0x80000000)]) =
      true := by decide +kernel

/-- `ASR R0, R1, #32, R1 positive` (95_test_vectors.md V123). -/
theorem test_t_asr_imm :
    holds (fun s => s.x 0 == 0x0 && s.cpsr.z == true && s.cpsr.c == false)
      (boot |> inMode ⟨false, false, true, false, false, false, true, .sys⟩ |> placeCode (.thumb 0x1008) |> regs [(.sys, 1, 0x40000000)]) =
      true := by decide +kernel

/-- `ADD R0, R1, R2: 0xFFFFFFFF + 0xFFFFFFFF` (95_test_vectors.md V124). -/
theorem test_t_add_reg :
    holds (fun s => s.x 0 == 0xFFFFFFFE && s.cpsr.n == true && s.cpsr.c == true && s.cpsr.v == false)
      (boot |> inMode ⟨false, false, false, false, false, false, true, .sys⟩ |> placeCode (.thumb 0x1888) |> regs [(.sys, 1, 0xFFFFFFFF), (.sys, 2, 0xFFFFFFFF)]) =
      true := by decide +kernel

/-- `SUB R0, R1, #0 (imm3)` (95_test_vectors.md V125). -/
theorem test_t_sub_imm3 :
    holds (fun s => s.x 0 == 0x0 && s.cpsr.z == true && s.cpsr.c == true && s.cpsr.v == false)
      (boot |> inMode ⟨false, false, false, true, false, false, true, .sys⟩ |> placeCode (.thumb 0x1E08) |> regs [(.sys, 1, 0x0)]) =
      true := by decide +kernel

/-- `CMP R0, #1 with R0 = 0` (95_test_vectors.md V126). -/
theorem test_t_cmp_imm :
    holds (fun s => s.cpsr.n == true && s.cpsr.z == false && s.cpsr.c == false && s.cpsr.v == false)
      (boot |> inMode ⟨false, false, false, false, false, false, true, .sys⟩ |> placeCode (.thumb 0x2801) |> regs [(.sys, 0, 0x0)]) =
      true := by decide +kernel

/-- `MOV R7, #0 (C, V kept)` (95_test_vectors.md V127). -/
theorem test_t_mov_imm :
    holds (fun s => s.x 7 == 0x0 && s.cpsr.n == false && s.cpsr.z == true && s.cpsr.c == true && s.cpsr.v == true)
      (boot |> inMode ⟨false, false, true, true, false, false, true, .sys⟩ |> placeCode (.thumb 0x2700) |> regs [(.sys, 7, 0x9)]) =
      true := by decide +kernel

/-- `SUB R2, #0xFF: 0x80 - 0xFF` (95_test_vectors.md V128). -/
theorem test_t_sub_imm8 :
    holds (fun s => s.x 2 == 0xFFFFFF81 && s.cpsr.n == true && s.cpsr.c == false)
      (boot |> inMode ⟨false, false, false, false, false, false, true, .sys⟩ |> placeCode (.thumb 0x3AFF) |> regs [(.sys, 2, 0x80)]) =
      true := by decide +kernel

/-- `LSL R0, R1 (register) amount 0: C kept` (95_test_vectors.md V129). -/
theorem test_t_lsl_reg :
    holds (fun s => s.x 0 == 0x5 && s.cpsr.c == true)
      (boot |> inMode ⟨false, false, true, false, false, false, true, .sys⟩ |> placeCode (.thumb 0x4088) |> regs [(.sys, 0, 0x5), (.sys, 1, 0x100)]) =
      true := by decide +kernel

/-- `LSR R0, R1 amount 33` (95_test_vectors.md V130). -/
theorem test_t_lsr_reg :
    holds (fun s => s.x 0 == 0x0 && s.cpsr.z == true && s.cpsr.c == false)
      (boot |> inMode ⟨false, false, true, false, false, false, true, .sys⟩ |> placeCode (.thumb 0x40C8) |> regs [(.sys, 0, 0xFFFFFFFF), (.sys, 1, 0x21)]) =
      true := by decide +kernel

/-- `ROR R0, R1 amount 32` (95_test_vectors.md V131). -/
theorem test_t_ror :
    holds (fun s => s.x 0 == 0x80000000 && s.cpsr.n == true && s.cpsr.c == true)
      (boot |> inMode ⟨false, false, false, false, false, false, true, .sys⟩ |> placeCode (.thumb 0x41C8) |> regs [(.sys, 0, 0x80000000), (.sys, 1, 0x20)]) =
      true := by decide +kernel

/-- `NEG R0, R1: 0x80000000` (95_test_vectors.md V132). -/
theorem test_t_neg_a :
    holds (fun s => s.x 0 == 0x80000000 && s.cpsr.n == true && s.cpsr.c == false && s.cpsr.v == true)
      (boot |> inMode ⟨false, false, false, false, false, false, true, .sys⟩ |> placeCode (.thumb 0x4248) |> regs [(.sys, 1, 0x80000000)]) =
      true := by decide +kernel

/-- `NEG R0, R1: 0` (95_test_vectors.md V133). -/
theorem test_t_neg_b :
    holds (fun s => s.x 0 == 0x0 && s.cpsr.z == true && s.cpsr.c == true && s.cpsr.v == false)
      (boot |> inMode ⟨false, false, false, false, false, false, true, .sys⟩ |> placeCode (.thumb 0x4248) |> regs [(.sys, 1, 0x0)]) =
      true := by decide +kernel

/-- `SBC R0, R1: C = 1` (95_test_vectors.md V134). -/
theorem test_t_sbc :
    holds (fun s => s.x 0 == 0xFFFFFFFE && s.cpsr.n == true && s.cpsr.c == false)
      (boot |> inMode ⟨false, false, true, false, false, false, true, .sys⟩ |> placeCode (.thumb 0x4188) |> regs [(.sys, 0, 0x3), (.sys, 1, 0x5)]) =
      true := by decide +kernel

/-- `MUL R0, R1: 0x10000 * 0x10000` (95_test_vectors.md V135). -/
theorem test_t_mul :
    holds (fun s => s.x 0 == 0x0 && s.cpsr.z == true)
      (boot |> inMode ⟨false, false, false, false, false, false, true, .sys⟩ |> placeCode (.thumb 0x4348) |> regs [(.sys, 0, 0x10000), (.sys, 1, 0x10000)]) =
      true := by decide +kernel

/-- `MVN R0, R1` (95_test_vectors.md V136). -/
theorem test_t_mvn :
    holds (fun s => s.x 0 == 0xF0F0F0F0 && s.cpsr.n == true)
      (boot |> inMode ⟨false, false, false, false, false, false, true, .sys⟩ |> placeCode (.thumb 0x43C8) |> regs [(.sys, 1, 0xF0F0F0F)]) =
      true := by decide +kernel

/-- `ADD R8, R9 (high, no flags)` (95_test_vectors.md V137). -/
theorem test_t_add_hi_a :
    holds (fun s => s.x 8 == 0x0 && s.cpsr.z == true && s.cpsr.c == false)
      (boot |> inMode ⟨false, true, false, false, false, false, true, .sys⟩ |> placeCode (.thumb 0x44C8) |> regs [(.sys, 8, 0xFFFFFFFF), (.sys, 9, 0x1)]) =
      true := by decide +kernel

/-- `ADD R0, PC (high form) at 0x08000002` (95_test_vectors.md V138). -/
theorem test_t_add_hi_b :
    holds (fun s => s.x 0 == 0x8000016)
      (boot |> inMode ⟨false, false, false, false, false, false, true, .sys⟩ |> startingAt 0x08000002 |> placeCode (.thumb 0x4478) |> regs [(.sys, 0, 0x10)]) =
      true := by decide +kernel

/-- `CMP R8, R0: 0 vs 1` (95_test_vectors.md V139). -/
theorem test_t_cmp_hi :
    holds (fun s => s.cpsr.n == true && s.cpsr.z == false && s.cpsr.c == false)
      (boot |> inMode ⟨false, false, false, false, false, false, true, .sys⟩ |> placeCode (.thumb 0x4580) |> regs [(.sys, 8, 0x0), (.sys, 0, 0x1)]) =
      true := by decide +kernel

/-- `MOV PC, R0 (bit 0 dropped, stays Thumb)` (95_test_vectors.md V140). -/
theorem test_t_mov_hi_a :
    holds (fun s => s.cpsr == ⟨false, false, false, false, false, false, true, .sys⟩ && s.pc == 0x8000200)
      (boot |> inMode ⟨false, false, false, false, false, false, true, .sys⟩ |> placeCode (.thumb 0x4687) |> regs [(.sys, 0, 0x8000201)]) =
      true := by decide +kernel

/-- `BX PC at 0x08000000 (to ARM at 0x08000004)` (95_test_vectors.md V142). -/
theorem test_t_bx_a :
    holds (fun s => s.cpsr == ⟨false, false, false, false, false, false, false, .sys⟩ && s.pc == 0x8000004)
      (boot |> inMode ⟨false, false, false, false, false, false, true, .sys⟩ |> placeCode (.thumb 0x4778)) =
      true := by decide +kernel

/-- `BX R14 with LR = 0x08000105` (95_test_vectors.md V143). -/
theorem test_t_bx_b :
    holds (fun s => s.cpsr == ⟨false, false, false, false, false, false, true, .sys⟩ && s.pc == 0x8000104)
      (boot |> inMode ⟨false, false, false, false, false, false, true, .sys⟩ |> placeCode (.thumb 0x4770) |> regs [(.sys, 14, 0x8000105)]) =
      true := by decide +kernel

/-- `ADD R0, PC, #1020 at 0x08000002` (95_test_vectors.md V144). -/
theorem test_t_add_pc :
    holds (fun s => s.x 0 == 0x8000400)
      (boot |> inMode ⟨false, false, false, false, false, false, true, .sys⟩ |> startingAt 0x08000002 |> placeCode (.thumb 0xA0FF)) =
      true := by decide +kernel

/-- `ADD R1, SP, #8` (95_test_vectors.md V145). -/
theorem test_t_add_sp :
    holds (fun s => s.x 1 == 0x3007F08)
      (boot |> inMode ⟨false, false, false, false, false, false, true, .sys⟩ |> placeCode (.thumb 0xA902) |> regs [(.sys, 13, 0x3007F00)]) =
      true := by decide +kernel

/-- `SUB SP, #508` (95_test_vectors.md V146). -/
theorem test_t_add_sp_imm :
    holds (fun s => s.x 13 == 0x3007D04)
      (boot |> inMode ⟨false, false, false, false, false, false, true, .sys⟩ |> placeCode (.thumb 0xB0FF) |> regs [(.sys, 13, 0x3007F00)]) =
      true := by decide +kernel

/-- `LDR R0, [R1, R2] unaligned by 3` (95_test_vectors.md V148). -/
theorem test_t_ldr_reg :
    holds (fun s => s.x 0 == 0xBBCCDDAA)
      (boot |> inMode ⟨false, false, false, false, false, false, true, .sys⟩ |> placeCode (.thumb 0x5888) |> data [(.word, 0x03000000, 0xAABBCCDD)] |> regs [(.sys, 1, 0x3000000), (.sys, 2, 0x3)]) =
      true := by decide +kernel

/-- `LDSB R0, [R1, R2]` (95_test_vectors.md V149). -/
theorem test_t_ldsb :
    holds (fun s => s.x 0 == 0xFFFFFF80)
      (boot |> inMode ⟨false, false, false, false, false, false, true, .sys⟩ |> placeCode (.thumb 0x5688) |> data [(.word, 0x03000000, 0x8000)] |> regs [(.sys, 1, 0x3000000), (.sys, 2, 0x1)]) =
      true := by decide +kernel

/-- `LDSH R0, [R1, R2]` (95_test_vectors.md V150). -/
theorem test_t_ldsh :
    holds (fun s => s.x 0 == 0xFFFF8001)
      (boot |> inMode ⟨false, false, false, false, false, false, true, .sys⟩ |> placeCode (.thumb 0x5E88) |> data [(.word, 0x03000000, 0x80010000)] |> regs [(.sys, 1, 0x3000000), (.sys, 2, 0x2)]) =
      true := by decide +kernel

/-- `STR R0, [R1, #124] (offset5 31 scaled by 4)` (95_test_vectors.md V151). -/
theorem test_t_str_imm :
    holds (fun s => valueAt s .word 0x300007C == 0xAB)
      (boot |> inMode ⟨false, false, false, false, false, false, true, .sys⟩ |> placeCode (.thumb 0x67C8) |> regs [(.sys, 0, 0xAB), (.sys, 1, 0x3000000)]) =
      true := by decide +kernel

/-- `LDRH R0, [R1, #62] (offset5 31 scaled by 2)` (95_test_vectors.md V152). -/
theorem test_t_ldrh_imm :
    holds (fun s => s.x 0 == 0xBEEF)
      (boot |> inMode ⟨false, false, false, false, false, false, true, .sys⟩ |> placeCode (.thumb 0x8FC8) |> data [(.half, 0x0300003E, 0xBEEF)] |> regs [(.sys, 1, 0x3000000)]) =
      true := by decide +kernel

/-- `LDRB R0, [R1, #31] (unscaled)` (95_test_vectors.md V153). -/
theorem test_t_ldrb_imm :
    holds (fun s => s.x 0 == 0x9A)
      (boot |> inMode ⟨false, false, false, false, false, false, true, .sys⟩ |> placeCode (.thumb 0x7FC8) |> data [(.byte, 0x0300001F, 0x9A)] |> regs [(.sys, 1, 0x3000000)]) =
      true := by decide +kernel

/-- `STRH R0, [R1, #1] odd, strict` (95_test_vectors.md V154). -/
theorem test_t_strh_imm_a :
    stops (.unpredictable .strhUnaligned)
      (boot |> inMode ⟨false, false, false, false, false, false, true, .sys⟩ |> placeCode (.thumb 0x8008) |> regs [(.sys, 0, 0x1), (.sys, 1, 0x3000001)]) =
      true := by decide +kernel

/-- `LDR R0, [SP, #1020]` (95_test_vectors.md V155). -/
theorem test_t_ldr_sp :
    holds (fun s => s.x 0 == 0x31)
      (boot |> inMode ⟨false, false, false, false, false, false, true, .sys⟩ |> placeCode (.thumb 0x98FF) |> data [(.word, 0x030073FC, 0x31)] |> regs [(.sys, 13, 0x3007000)]) =
      true := by decide +kernel

/-- `PUSH {R0-R7, LR}` (95_test_vectors.md V156). -/
theorem test_t_push :
    holds (fun s => s.x 13 == 0x3007EDC && valueAt s .word 0x3007EDC == 0x0 && valueAt s .word 0x3007EF8 == 0x7 && valueAt s .word 0x3007EFC == 0xE)
      (boot |> inMode ⟨false, false, false, false, false, false, true, .sys⟩ |> placeCode (.thumb 0xB5FF) |> regs [(.sys, 13, 0x3007F00), (.sys, 0, 0x0), (.sys, 1, 0x1), (.sys, 2, 0x2), (.sys, 3, 0x3), (.sys, 4, 0x4), (.sys, 5, 0x5), (.sys, 6, 0x6), (.sys, 7, 0x7), (.sys, 14, 0xE)]) =
      true := by decide +kernel

/-- `POP {R0, PC}` (95_test_vectors.md V157). -/
theorem test_t_pop :
    holds (fun s => s.cpsr == ⟨false, false, false, false, false, false, true, .sys⟩ && s.x 0 == 0x5 && s.pc == 0x8000300 && s.x 13 == 0x3007F00)
      (boot |> inMode ⟨false, false, false, false, false, false, true, .sys⟩ |> placeCode (.thumb 0xBD01) |> data [(.word, 0x03007EF8, 0x5), (.word, 0x03007EFC, 0x8000301)] |> regs [(.sys, 13, 0x3007EF8)]) =
      true := by decide +kernel

/-- `LDMIA R0!, {R0, R1} (base in list: loaded value kept)` (95_test_vectors.md V158). -/
theorem test_t_ldmia :
    holds (fun s => s.x 0 == 0x44 && s.x 1 == 0x55)
      (boot |> inMode ⟨false, false, false, false, false, false, true, .sys⟩ |> placeCode (.thumb 0xC803) |> data [(.word, 0x03000000, 0x44), (.word, 0x03000004, 0x55)] |> regs [(.sys, 0, 0x3000000)]) =
      true := by decide +kernel

/-- `STMIA R0!, {R0, R1} (base lowest)` (95_test_vectors.md V159). -/
theorem test_t_stmia :
    holds (fun s => s.x 0 == 0x3000008 && valueAt s .word 0x3000000 == 0x3000000 && valueAt s .word 0x3000004 == 0x9)
      (boot |> inMode ⟨false, false, false, false, false, false, true, .sys⟩ |> placeCode (.thumb 0xC003) |> regs [(.sys, 0, 0x3000000), (.sys, 1, 0x9)]) =
      true := by decide +kernel

/-- `BLT taken, backward (0xDBFE at 0x08000010)` (95_test_vectors.md V160). -/
theorem test_t_b_cond_a :
    holds (fun s => s.pc == 0x8000010)
      (boot |> inMode ⟨true, false, false, false, false, false, true, .sys⟩ |> startingAt 0x08000010 |> placeCode (.thumb 0xDBFE)) =
      true := by decide +kernel

/-- `BCS not taken` (95_test_vectors.md V161). -/
theorem test_t_b_cond_b :
    holds (fun s => s.pc == 0x8000002)
      (boot |> inMode ⟨false, false, false, false, false, false, true, .sys⟩ |> placeCode (.thumb 0xD205)) =
      true := by decide +kernel

/-- `B -2048 bytes: 0xE400 at 0x08000800` (95_test_vectors.md V165). -/
theorem test_t_b :
    holds (fun s => s.pc == 0x8000004)
      (boot |> inMode ⟨false, false, false, false, false, false, true, .sys⟩ |> startingAt 0x08000800 |> placeCode (.thumb 0xE400)) =
      true := by decide +kernel

/-- `SWI #0xFF in Thumb, from User mode` (95_test_vectors.md V167). -/
theorem test_t_swi :
    holds (fun s => s.cpsr == ⟨false, false, false, false, true, false, false, .svc⟩ && s.pc == 0x8 && s.spsr[2] == ⟨false, false, false, false, false, false, true, 16⟩ && s.regOf .svc 14 == 0x8000002)
      (boot |> inMode ⟨false, false, false, false, false, false, true, .usr⟩ |> placeCode (.thumb 0xDFFF)) =
      true := by decide +kernel

/-- `ANDS R0, R1, R2, LSL #4` (R220). -/
theorem test_and_rsi : holds (fun s => s.x 0 == 0xF000 && s.cpsr.n == false && s.cpsr.z == false && s.cpsr.c == false)
    (boot |> placeCode (.arm 0xE0110202) |> regs [(.sys, 1, 0xF0F0), (.sys, 2, 0xFF0)]) = true := by decide +kernel

/-- `AND R0, R1, R2, LSL R3` (R220). -/
theorem test_and_rsr :
    holds (fun s => s.x 0 == 0x30)
      (boot |> placeCode (.arm 0xE0010312) |> regs [(.sys, 1, 0xFF), (.sys, 2, 0x3), (.sys, 3, 0x4)]) =
      true := by decide +kernel

/-- `EOR R0, R1, #0xFF` (R221). -/
theorem test_eor_imm : holds (fun s => s.x 0 == 0xF0)
    (boot |> placeCode (.arm 0xE22100FF) |> regs [(.sys, 1, 0xF)]) = true := by decide +kernel

/-- `EOR R0, R1, R2, LSR R3` (R221). -/
theorem test_eor_rsr :
    holds (fun s => s.x 0 == 0xF0)
      (boot |> placeCode (.arm 0xE0210332) |> regs [(.sys, 1, 0xFF), (.sys, 2, 0xF0), (.sys, 3, 0x4)]) =
      true := by decide +kernel

/-- `SUBS R0, R1, #1` (R222). -/
theorem test_sub_imm :
    holds (fun s => s.x 0 == 0xFFFFFFFF && s.cpsr.n == true && s.cpsr.z == false && s.cpsr.c == false && s.cpsr.v == false)
      (boot |> placeCode (.arm 0xE2510001) |> regs [(.sys, 1, 0x0)]) =
      true := by decide +kernel

/-- `SUB R0, R1, R2, LSL R3` (R222). -/
theorem test_sub_rsr :
    holds (fun s => s.x 0 == 0xF0)
      (boot |> placeCode (.arm 0xE0410312) |> regs [(.sys, 1, 0x100), (.sys, 2, 0x1), (.sys, 3, 0x4)]) =
      true := by decide +kernel

/-- `RSB R0, R1, R2` (R223). -/
theorem test_rsb_rsi : holds (fun s => s.x 0 == 0x7)
    (boot |> placeCode (.arm 0xE0610002) |> regs [(.sys, 1, 0x3), (.sys, 2, 0xA)]) = true := by decide +kernel

/-- `RSB R0, R1, R2, LSL R3` (R223). -/
theorem test_rsb_rsr :
    holds (fun s => s.x 0 == 0xFF)
      (boot |> placeCode (.arm 0xE0610312) |> regs [(.sys, 1, 0x1), (.sys, 2, 0x1), (.sys, 3, 0x8)]) =
      true := by decide +kernel

/-- `ADD R0, R1, R2, ROR R3` (R224). -/
theorem test_add_rsr :
    holds (fun s => s.x 0 == 0x2)
      (boot |> placeCode (.arm 0xE0810372) |> regs [(.sys, 1, 0x1), (.sys, 2, 0x10), (.sys, 3, 0x4)]) =
      true := by decide +kernel

/-- `ADC R0, R1, #1 with C = 1` (R225). -/
theorem test_adc_imm :
    holds (fun s => s.x 0 == 0x7)
      (boot |> inMode ⟨false, false, true, false, false, false, false, .sys⟩ |> placeCode (.arm 0xE2A10001) |> regs [(.sys, 1, 0x5)]) =
      true := by decide +kernel

/-- `ADC R0, R1, R2, LSL R3 with C = 1` (R225). -/
theorem test_adc_rsr :
    holds (fun s => s.x 0 == 0x6)
      (boot |> inMode ⟨false, false, true, false, false, false, false, .sys⟩ |> placeCode (.arm 0xE0A10312) |> regs [(.sys, 1, 0x1), (.sys, 2, 0x1), (.sys, 3, 0x2)]) =
      true := by decide +kernel

/-- `SBC R0, R1, #1 with C = 0` (R226). -/
theorem test_sbc_imm : holds (fun s => s.x 0 == 0x3)
    (boot |> placeCode (.arm 0xE2C10001) |> regs [(.sys, 1, 0x5)]) = true := by decide +kernel

/-- `SBC R0, R1, R2, LSL R3 with C = 1` (R226). -/
theorem test_sbc_rsr :
    holds (fun s => s.x 0 == 0x1C)
      (boot |> inMode ⟨false, false, true, false, false, false, false, .sys⟩ |> placeCode (.arm 0xE0C10312) |> regs [(.sys, 1, 0x20), (.sys, 2, 0x1), (.sys, 3, 0x2)]) =
      true := by decide +kernel

/-- `RSCS R0, R1, R2 with C = 1` (R227). -/
theorem test_rsc_rsi :
    holds (fun s => s.x 0 == 0x7 && s.cpsr.n == false && s.cpsr.z == false && s.cpsr.c == true && s.cpsr.v == false)
      (boot |> inMode ⟨false, false, true, false, false, false, false, .sys⟩ |> placeCode (.arm 0xE0F10002) |> regs [(.sys, 1, 0x3), (.sys, 2, 0xA)]) =
      true := by decide +kernel

/-- `RSC R0, R1, R2, LSL R3 with C = 0` (R227). -/
theorem test_rsc_rsr :
    holds (fun s => s.x 0 == 0xE)
      (boot |> placeCode (.arm 0xE0E10312) |> regs [(.sys, 1, 0x1), (.sys, 2, 0x1), (.sys, 3, 0x4)]) =
      true := by decide +kernel

/-- `TST R1, #0x80000000` (R228). -/
theorem test_tst_imm : holds (fun s => s.cpsr.n == true && s.cpsr.z == false && s.cpsr.c == true)
    (boot |> placeCode (.arm 0xE3110102) |> regs [(.sys, 1, 0x80000000)]) = true := by decide +kernel

/-- `TST R1, R2, LSL R3` (R228). -/
theorem test_tst_rsr :
    holds (fun s => s.cpsr.n == false && s.cpsr.z == false && s.cpsr.c == false)
      (boot |> inMode ⟨false, true, false, false, false, false, false, .sys⟩ |> placeCode (.arm 0xE1110312) |> regs [(.sys, 1, 0x10), (.sys, 2, 0x1), (.sys, 3, 0x4)]) =
      true := by decide +kernel

/-- `TEQ R1, R1` (R229). -/
theorem test_teq_rsi : holds (fun s => s.cpsr.n == false && s.cpsr.z == true && s.cpsr.c == false)
    (boot |> placeCode (.arm 0xE1310001) |> regs [(.sys, 1, 0x80000000)]) = true := by decide +kernel

/-- `TEQ R1, R2, LSL R3` (R229). -/
theorem test_teq_rsr :
    holds (fun s => s.cpsr.n == false && s.cpsr.z == true && s.cpsr.c == false)
      (boot |> placeCode (.arm 0xE1310312) |> regs [(.sys, 1, 0x10), (.sys, 2, 0x1), (.sys, 3, 0x4)]) =
      true := by decide +kernel

/-- `CMP R0, #0` (R230). -/
theorem test_cmp_imm : holds (fun s => s.cpsr.n == false && s.cpsr.z == true && s.cpsr.c == true && s.cpsr.v == false)
    (boot |> placeCode (.arm 0xE3500000) |> regs [(.sys, 0, 0x0)]) = true := by decide +kernel

/-- `CMP R1, R2, LSL R3` (R230). -/
theorem test_cmp_rsr :
    holds (fun s => s.cpsr.n == true && s.cpsr.z == false && s.cpsr.c == false && s.cpsr.v == false)
      (boot |> placeCode (.arm 0xE1510312) |> regs [(.sys, 1, 0xF), (.sys, 2, 0x1), (.sys, 3, 0x4)]) =
      true := by decide +kernel

/-- `CMN R0, #1` (R231). -/
theorem test_cmn_imm : holds (fun s => s.cpsr.n == false && s.cpsr.z == true && s.cpsr.c == true && s.cpsr.v == false)
    (boot |> placeCode (.arm 0xE3700001) |> regs [(.sys, 0, 0xFFFFFFFF)]) = true := by decide +kernel

/-- `CMN R1, R2, LSL R3` (R231). -/
theorem test_cmn_rsr :
    holds (fun s => s.cpsr.n == false && s.cpsr.z == true && s.cpsr.c == true && s.cpsr.v == false)
      (boot |> placeCode (.arm 0xE1710312) |> regs [(.sys, 1, 0xFFFFFFF0), (.sys, 2, 0x1), (.sys, 3, 0x4)]) =
      true := by decide +kernel

/-- `ORR R0, R0, R1, LSL #4` (R232). -/
theorem test_orr_rsi : holds (fun s => s.x 0 == 0x21)
    (boot |> placeCode (.arm 0xE1800201) |> regs [(.sys, 0, 0x1), (.sys, 1, 0x2)]) = true := by decide +kernel

/-- `ORR R0, R1, R2, LSL R3` (R232). -/
theorem test_orr_rsr :
    holds (fun s => s.x 0 == 0x11)
      (boot |> placeCode (.arm 0xE1810312) |> regs [(.sys, 1, 0x1), (.sys, 2, 0x1), (.sys, 3, 0x4)]) =
      true := by decide +kernel

/-- `MOV R0, #0xFF000000` (R233). -/
theorem test_mov_imm :
    holds (fun s => s.x 0 == 0xFF000000)
      (boot |> inMode ⟨false, false, false, false, false, false, false, .sys⟩ |> placeCode (.arm 0xE3A004FF)) =
      true := by decide +kernel

/-- `BIC R0, R1, R2` (R234). -/
theorem test_bic_rsi : holds (fun s => s.x 0 == 0xF0)
    (boot |> placeCode (.arm 0xE1C10002) |> regs [(.sys, 1, 0xFF), (.sys, 2, 0xF)]) = true := by decide +kernel

/-- `BIC R0, R1, R2, LSL R3` (R234). -/
theorem test_bic_rsr :
    holds (fun s => s.x 0 == 0xEF)
      (boot |> placeCode (.arm 0xE1C10312) |> regs [(.sys, 1, 0xFF), (.sys, 2, 0x1), (.sys, 3, 0x4)]) =
      true := by decide +kernel

/-- `MVN R0, #0` (R235). -/
theorem test_mvn_imm :
    holds (fun s => s.x 0 == 0xFFFFFFFF)
      (boot |> inMode ⟨false, false, false, false, false, false, false, .sys⟩ |> placeCode (.arm 0xE3E00000)) =
      true := by decide +kernel

/-- `MVN R0, R2, LSL R3` (R235). -/
theorem test_mvn_rsr : holds (fun s => s.x 0 == 0xFFFFFF0F)
    (boot |> placeCode (.arm 0xE1E00312) |> regs [(.sys, 2, 0xF), (.sys, 3, 0x4)]) = true := by decide +kernel

/-- `STRH R0, [R1, #2]` (R312). -/
theorem test_strh_imm :
    holds (fun s => valueAt s .half 0x3000002 == 0x5678)
      (boot |> placeCode (.arm 0xE1C100B2) |> regs [(.sys, 0, 0x12345678), (.sys, 1, 0x3000000)]) =
      true := by decide +kernel

/-- `LDRH R0, [R1, R2]` (R311). -/
theorem test_ldrh_reg :
    holds (fun s => s.x 0 == 0xAABB)
      (boot |> placeCode (.arm 0xE19100B2) |> data [(.word, 0x03000000, 0xAABBCCDD)] |> regs [(.sys, 1, 0x3000000), (.sys, 2, 0x2)]) =
      true := by decide +kernel

/-- `LDRSB R0, [R1, R2]` (R313). -/
theorem test_ldrsb_reg :
    holds (fun s => s.x 0 == 0xFFFFFF80)
      (boot |> placeCode (.arm 0xE19100D2) |> data [(.byte, 0x03000000, 0x80)] |> regs [(.sys, 1, 0x3000000), (.sys, 2, 0x0)]) =
      true := by decide +kernel

/-- `LDRSH R0, [R1, R2]` (R314). -/
theorem test_ldrsh_reg :
    holds (fun s => s.x 0 == 0xFFFF8001)
      (boot |> placeCode (.arm 0xE19100F2) |> data [(.half, 0x03000000, 0x8001)] |> regs [(.sys, 1, 0x3000000), (.sys, 2, 0x0)]) =
      true := by decide +kernel

/-- `STR R0, [R1], #4` (R302). -/
theorem test_str_imm_post :
    holds (fun s => s.x 1 == 0x2000004 && valueAt s .word 0x2000000 == 0x12345678)
      (boot |> placeCode (.arm 0xE4810004) |> regs [(.sys, 0, 0x12345678), (.sys, 1, 0x2000000)]) =
      true := by decide +kernel

/-- `STR R0, [R1, R2]` (R302). -/
theorem test_str_reg_pre :
    holds (fun s => s.x 1 == 0x3000000 && valueAt s .word 0x3000008 == 0x7)
      (boot |> placeCode (.arm 0xE7810002) |> regs [(.sys, 0, 0x7), (.sys, 1, 0x3000000), (.sys, 2, 0x8)]) =
      true := by decide +kernel

/-- `STR R0, [R1], R2` (R302). -/
theorem test_str_reg_post :
    holds (fun s => s.x 1 == 0x3000008 && valueAt s .word 0x3000000 == 0x7)
      (boot |> placeCode (.arm 0xE6810002) |> regs [(.sys, 0, 0x7), (.sys, 1, 0x3000000), (.sys, 2, 0x8)]) =
      true := by decide +kernel

/-- `LDRB R0, [R1], #1` (R303). -/
theorem test_ldrb_imm_post :
    holds (fun s => s.x 0 == 0x9A && s.x 1 == 0x3000004)
      (boot |> placeCode (.arm 0xE4D10001) |> data [(.byte, 0x03000003, 0x9A)] |> regs [(.sys, 1, 0x3000003)]) =
      true := by decide +kernel

/-- `LDRB R0, [R1, R2]` (R303). -/
theorem test_ldrb_reg_pre :
    holds (fun s => s.x 0 == 0xAA)
      (boot |> placeCode (.arm 0xE7D10002) |> data [(.word, 0x03000000, 0xAABBCCDD)] |> regs [(.sys, 1, 0x3000000), (.sys, 2, 0x3)]) =
      true := by decide +kernel

/-- `LDRB R0, [R1], R2` (R303). -/
theorem test_ldrb_reg_post :
    holds (fun s => s.x 0 == 0xDD && s.x 1 == 0x3000003)
      (boot |> placeCode (.arm 0xE6D10002) |> data [(.word, 0x03000000, 0xAABBCCDD)] |> regs [(.sys, 1, 0x3000000), (.sys, 2, 0x3)]) =
      true := by decide +kernel

/-- `STRB R0, [R1], #1` (R304). -/
theorem test_strb_imm_post :
    holds (fun s => s.x 1 == 0x3000002 && valueAt s .byte 0x3000001 == 0xFF && valueAt s .byte 0x3000002 == 0x0)
      (boot |> placeCode (.arm 0xE4C10001) |> regs [(.sys, 0, 0x1FF), (.sys, 1, 0x3000001)]) =
      true := by decide +kernel

/-- `STRB R0, [R1, R2]` (R304). -/
theorem test_strb_reg_pre :
    holds (fun s => s.x 1 == 0x2000001 && valueAt s .byte 0x2000003 == 0x34)
      (boot |> placeCode (.arm 0xE7C10002) |> regs [(.sys, 0, 0x1234), (.sys, 1, 0x2000001), (.sys, 2, 0x2)]) =
      true := by decide +kernel

/-- `STRB R0, [R1], R2` (R304). -/
theorem test_strb_reg_post :
    holds (fun s => s.x 1 == 0x2000003 && valueAt s .byte 0x2000001 == 0x34)
      (boot |> placeCode (.arm 0xE6C10002) |> regs [(.sys, 0, 0x1234), (.sys, 1, 0x2000001), (.sys, 2, 0x2)]) =
      true := by decide +kernel

/-- `LDRT R0, [R1], R2` (R305). -/
theorem test_ldrt_reg :
    holds (fun s => s.x 0 == 0x5 && s.x 1 == 0x3000008)
      (boot |> placeCode (.arm 0xE6B10002) |> data [(.word, 0x03000000, 0x5)] |> regs [(.sys, 1, 0x3000000), (.sys, 2, 0x8)]) =
      true := by decide +kernel

/-- `STRT R0, [R1], #4` (R306). -/
theorem test_strt_imm : holds (fun s => s.x 1 == 0x3000004 && valueAt s .word 0x3000000 == 0x7)
    (boot |> placeCode (.arm 0xE4A10004) |> regs [(.sys, 0, 0x7), (.sys, 1, 0x3000000)]) = true := by decide +kernel

/-- `STRT R0, [R1], R2` (R306). -/
theorem test_strt_reg :
    holds (fun s => s.x 1 == 0x3000008 && valueAt s .word 0x3000000 == 0x7)
      (boot |> placeCode (.arm 0xE6A10002) |> regs [(.sys, 0, 0x7), (.sys, 1, 0x3000000), (.sys, 2, 0x8)]) =
      true := by decide +kernel

/-- `LDRBT R0, [R1], #4` (R307). -/
theorem test_ldrbt_imm :
    holds (fun s => s.x 0 == 0x80 && s.x 1 == 0x3000004)
      (boot |> placeCode (.arm 0xE4F10004) |> data [(.byte, 0x03000000, 0x80)] |> regs [(.sys, 1, 0x3000000)]) =
      true := by decide +kernel

/-- `LDRBT R0, [R1], R2` (R307). -/
theorem test_ldrbt_reg :
    holds (fun s => s.x 0 == 0x80 && s.x 1 == 0x3000008)
      (boot |> placeCode (.arm 0xE6F10002) |> data [(.byte, 0x03000000, 0x80)] |> regs [(.sys, 1, 0x3000000), (.sys, 2, 0x8)]) =
      true := by decide +kernel

/-- `STRBT R0, [R1], #4` (R308). -/
theorem test_strbt_imm : holds (fun s => s.x 1 == 0x3000004 && valueAt s .byte 0x3000000 == 0xFF)
    (boot |> placeCode (.arm 0xE4E10004) |> regs [(.sys, 0, 0x1FF), (.sys, 1, 0x3000000)]) = true := by decide +kernel

/-- `STRBT R0, [R1], R2` (R308). -/
theorem test_strbt_reg :
    holds (fun s => s.x 1 == 0x3000008 && valueAt s .byte 0x3000000 == 0xFF)
      (boot |> placeCode (.arm 0xE6E10002) |> regs [(.sys, 0, 0x1FF), (.sys, 1, 0x3000000), (.sys, 2, 0x8)]) =
      true := by decide +kernel

/-- `STC p1, c0, [R1]` (R363). -/
theorem test_stc : holds (fun s => s.pc == 0x8000004 && s.x 1 == 0x3000000)
    (boot |> placeCode (.arm 0xED810100) |> regs [(.sys, 1, 0x3000000)]) = true := by decide +kernel

/-- `MCR p15, 0, R0, c1, c0, 0` (R364). -/
theorem test_mcr : holds (fun s => s.pc == 0x8000004 && s.x 0 == 0x3)
    (boot |> placeCode (.arm 0xEE010F10) |> regs [(.sys, 0, 0x3)]) = true := by decide +kernel

/-- `SUB R0, R1, R2` (R405). -/
theorem test_t_sub_reg :
    holds (fun s => s.x 0 == 0x2 && s.cpsr.n == false && s.cpsr.z == false && s.cpsr.c == true && s.cpsr.v == false)
      (boot |> inMode ⟨false, false, false, false, false, false, true, .sys⟩ |> placeCode (.thumb 0x1A88) |> regs [(.sys, 1, 0x5), (.sys, 2, 0x3)]) =
      true := by decide +kernel

/-- `ADD R0, R1, #3` (R406). -/
theorem test_t_add_imm3 :
    holds (fun s => s.x 0 == 0x1 && s.cpsr.n == false && s.cpsr.z == false && s.cpsr.c == true && s.cpsr.v == false)
      (boot |> inMode ⟨false, false, false, false, false, false, true, .sys⟩ |> placeCode (.thumb 0x1CC8) |> regs [(.sys, 1, 0xFFFFFFFE)]) =
      true := by decide +kernel

/-- `ADD R0, #1` (R410). -/
theorem test_t_add_imm8 :
    holds (fun s => s.x 0 == 0x0 && s.cpsr.z == true && s.cpsr.c == true && s.cpsr.v == false)
      (boot |> inMode ⟨false, false, false, false, false, false, true, .sys⟩ |> placeCode (.thumb 0x3001) |> regs [(.sys, 0, 0xFFFFFFFF)]) =
      true := by decide +kernel

/-- `AND R0, R1` (R412). -/
theorem test_t_and :
    holds (fun s => s.x 0 == 0xF000)
      (boot |> inMode ⟨false, false, false, false, false, false, true, .sys⟩ |> placeCode (.thumb 0x4008) |> regs [(.sys, 0, 0xF0F0), (.sys, 1, 0xFF00)]) =
      true := by decide +kernel

/-- `EOR R0, R1` (R413). -/
theorem test_t_eor :
    holds (fun s => s.x 0 == 0xFFFF0000 && s.cpsr.n == true)
      (boot |> inMode ⟨false, false, false, false, false, false, true, .sys⟩ |> placeCode (.thumb 0x4048) |> regs [(.sys, 0, 0xFFFFFFFF), (.sys, 1, 0xFFFF)]) =
      true := by decide +kernel

/-- `ASR R0, R1` (R416). -/
theorem test_t_asr_reg :
    holds (fun s => s.x 0 == 0xFFFFFFFF && s.cpsr.n == true && s.cpsr.c == true)
      (boot |> inMode ⟨false, false, false, false, false, false, true, .sys⟩ |> placeCode (.thumb 0x4108) |> regs [(.sys, 0, 0x80000000), (.sys, 1, 0x28)]) =
      true := by decide +kernel

/-- `ADC R0, R1 with C = 1` (R417). -/
theorem test_t_adc :
    holds (fun s => s.x 0 == 0x0 && s.cpsr.z == true && s.cpsr.c == true && s.cpsr.v == false)
      (boot |> inMode ⟨false, false, true, false, false, false, true, .sys⟩ |> placeCode (.thumb 0x4148) |> regs [(.sys, 0, 0xFFFFFFFF), (.sys, 1, 0x0)]) =
      true := by decide +kernel

/-- `TST R0, R1` (R420). -/
theorem test_t_tst :
    holds (fun s => s.cpsr.z == true && s.x 0 == 0xF0)
      (boot |> inMode ⟨false, false, false, false, false, false, true, .sys⟩ |> placeCode (.thumb 0x4208) |> regs [(.sys, 0, 0xF0), (.sys, 1, 0xF)]) =
      true := by decide +kernel

/-- `CMP R0, R1` (R422). -/
theorem test_t_cmp_reg :
    holds (fun s => s.cpsr.n == false && s.cpsr.z == false && s.cpsr.c == true && s.cpsr.v == true)
      (boot |> inMode ⟨false, false, false, false, false, false, true, .sys⟩ |> placeCode (.thumb 0x4288) |> regs [(.sys, 0, 0x80000000), (.sys, 1, 0x1)]) =
      true := by decide +kernel

/-- `CMN R0, R1` (R423). -/
theorem test_t_cmn :
    holds (fun s => s.cpsr.z == true && s.cpsr.c == true && s.cpsr.v == false)
      (boot |> inMode ⟨false, false, false, false, false, false, true, .sys⟩ |> placeCode (.thumb 0x42C8) |> regs [(.sys, 0, 0xFFFFFFFF), (.sys, 1, 0x1)]) =
      true := by decide +kernel

/-- `ORR R0, R1` (R424). -/
theorem test_t_orr :
    holds (fun s => s.x 0 == 0xFF)
      (boot |> inMode ⟨false, false, false, false, false, false, true, .sys⟩ |> placeCode (.thumb 0x4308) |> regs [(.sys, 0, 0xF), (.sys, 1, 0xF0)]) =
      true := by decide +kernel

/-- `BIC R0, R1` (R426). -/
theorem test_t_bic :
    holds (fun s => s.x 0 == 0xF0)
      (boot |> inMode ⟨false, false, false, false, false, false, true, .sys⟩ |> placeCode (.thumb 0x4388) |> regs [(.sys, 0, 0xFF), (.sys, 1, 0xF)]) =
      true := by decide +kernel

/-- `LDR R0, [PC, #4]` (R450). -/
theorem test_t_ldr_pc :
    holds (fun s => s.x 0 == 0xCAFEBABE)
      (boot |> inMode ⟨false, false, false, false, false, false, true, .sys⟩ |> startingAt 0x08000002 |> placeCode (.thumb 0x4801) |> data [(.word, 0x08000008, 0xCAFEBABE)]) =
      true := by decide +kernel

/-- `STR R0, [R1, R2]` (R451). -/
theorem test_t_str_reg :
    holds (fun s => valueAt s .word 0x3000004 == 0x11223344)
      (boot |> inMode ⟨false, false, false, false, false, false, true, .sys⟩ |> placeCode (.thumb 0x5088) |> regs [(.sys, 0, 0x11223344), (.sys, 1, 0x3000000), (.sys, 2, 0x4)]) =
      true := by decide +kernel

/-- `STRB R0, [R1, R2]` (R452). -/
theorem test_t_strb_reg :
    holds (fun s => valueAt s .byte 0x3000001 == 0xFF)
      (boot |> inMode ⟨false, false, false, false, false, false, true, .sys⟩ |> placeCode (.thumb 0x5488) |> regs [(.sys, 0, 0x1FF), (.sys, 1, 0x3000000), (.sys, 2, 0x1)]) =
      true := by decide +kernel

/-- `LDRB R0, [R1, R2]` (R454). -/
theorem test_t_ldrb_reg :
    holds (fun s => s.x 0 == 0xDD)
      (boot |> inMode ⟨false, false, false, false, false, false, true, .sys⟩ |> placeCode (.thumb 0x5C88) |> data [(.word, 0x03000000, 0xAABBCCDD)] |> regs [(.sys, 1, 0x3000000), (.sys, 2, 0x0)]) =
      true := by decide +kernel

/-- `STRH R0, [R1, R2]` (R455). -/
theorem test_t_strh_reg :
    holds (fun s => valueAt s .half 0x3000002 == 0x1234)
      (boot |> inMode ⟨false, false, false, false, false, false, true, .sys⟩ |> placeCode (.thumb 0x5288) |> regs [(.sys, 0, 0xABCD1234), (.sys, 1, 0x3000000), (.sys, 2, 0x2)]) =
      true := by decide +kernel

/-- `LDRH R0, [R1, R2]` (R457). -/
theorem test_t_ldrh_reg :
    holds (fun s => s.x 0 == 0xCCDD)
      (boot |> inMode ⟨false, false, false, false, false, false, true, .sys⟩ |> placeCode (.thumb 0x5A88) |> data [(.word, 0x03000000, 0xAABBCCDD)] |> regs [(.sys, 1, 0x3000000), (.sys, 2, 0x0)]) =
      true := by decide +kernel

/-- `LDR R0, [R1, #4]` (R460). -/
theorem test_t_ldr_imm :
    holds (fun s => s.x 0 == 0x9)
      (boot |> inMode ⟨false, false, false, false, false, false, true, .sys⟩ |> placeCode (.thumb 0x6848) |> data [(.word, 0x03000004, 0x9)] |> regs [(.sys, 1, 0x3000000)]) =
      true := by decide +kernel

/-- `STRB R0, [R1, #1]` (R461). -/
theorem test_t_strb_imm :
    holds (fun s => valueAt s .byte 0x3000001 == 0x41)
      (boot |> inMode ⟨false, false, false, false, false, false, true, .sys⟩ |> placeCode (.thumb 0x7048) |> regs [(.sys, 0, 0x41), (.sys, 1, 0x3000000)]) =
      true := by decide +kernel

/-- `STRH R0, [R1, #2]` (R463). -/
theorem test_t_strh_imm_b :
    holds (fun s => valueAt s .half 0x3000002 == 0x5678)
      (boot |> inMode ⟨false, false, false, false, false, false, true, .sys⟩ |> placeCode (.thumb 0x8048) |> regs [(.sys, 0, 0x12345678), (.sys, 1, 0x3000000)]) =
      true := by decide +kernel

/-- `STR R0, [SP, #4]` (R465). -/
theorem test_t_str_sp :
    holds (fun s => valueAt s .word 0x3007F04 == 0x7)
      (boot |> inMode ⟨false, false, false, false, false, false, true, .sys⟩ |> placeCode (.thumb 0x9001) |> regs [(.sys, 0, 0x7), (.sys, 13, 0x3007F00)]) =
      true := by decide +kernel

/-- `MOV R8, R0` (R432). -/
theorem test_t_mov_hi_b :
    holds (fun s => s.x 8 == 0x1234)
      (boot |> inMode ⟨false, false, false, false, false, false, true, .sys⟩ |> placeCode (.thumb 0x4680) |> regs [(.sys, 0, 0x1234)]) =
      true := by decide +kernel

/-- `BL, first half` (R475). -/
theorem test_t_bl_hi :
    holds (fun s => s.x 14 == 0x8000004 && s.pc == 0x8000002)
      (boot |> inMode ⟨false, false, false, false, false, false, true, .sys⟩ |> placeCode (.thumb 0xF000)) =
      true := by decide +kernel

/-- `BL, second half` (R476). -/
theorem test_t_bl_lo :
    holds (fun s => s.pc == 0x8001000 && s.x 14 == 0x8000005)
      (boot |> inMode ⟨false, false, false, false, false, false, true, .sys⟩ |> startingAt 0x08000002 |> placeCode (.thumb 0xFFFE) |> regs [(.sys, 14, 0x8000004)]) =
      true := by decide +kernel

-- Witnesses: states and operands that meet the hypotheses of the obligations

/-- `Runs`, decided. -/
def ready (i : Instr) (s : State) : Bool :=
  (match condOf i with
    | some c => condPassed c s.cpsr
    | none => true) &&
  (!s.strict || (i.wf && !s.lastUsrBank))

theorem runs_of_ready {i : Instr} {s : State} (h : ready i s = true) : Runs i s := by
  unfold ready at h
  rw [Bool.and_eq_true] at h
  refine ⟨fun c hc => by simpa [hc] using h.1, ?_⟩
  have := h.2
  cases hs : s.strict
  · exact .inl rfl
  · simp [hs] at this
    exact .inr this

/-- An instruction answers a next state here. -/
def completes (i : Instr) (s : State) : Bool :=
  match exec i s with
  | .next _ => true
  | .fault _ => false
  | .refused _ => false

theorem next_of_completes {i : Instr} {s : State} (h : completes i s = true) : ∃ t, exec i s = .next t := by
  unfold completes at h
  split at h
  · exact ⟨_, by assumption⟩
  · cases h
  · cases h

/-- System mode with R1 = 0x03000000, R2 = 4, R3 = 5 and R4 = 0x05000010, on the ARM7TDMI. -/
def busy : State := arm7 |> regs [(.sys, 1, 0x03000000), (.sys, 2, 4), (.sys, 3, 5), (.sys, 4, 0x05000010)]

/-- The same on a strict machine. -/
def strictBusy : State := boot |> regs [(.sys, 1, 0x03000000), (.sys, 2, 4), (.sys, 3, 5), (.sys, 4, 0x05000010)]

/-- The status of a mode with the flags and T given, I and F clear. -/
def status (n z c v t : Bool) (m : Mode) : Cpsr := ⟨n, z, c, v, false, false, t, m⟩

/-- IRQ mode whose SPSR is User mode, Thumb state. -/
def inIrq : State := busy |> inMode (status false false true false false .irq) |>
  saved [(.irq, ⟨true, false, false, true, false, false, true, 0x10⟩)]

/-- IRQ mode whose SPSR holds no mode. -/
def inIrqBad : State := busy |> inMode (status false false true false false .irq) |>
  saved [(.irq, ⟨true, false, false, true, false, false, true, 0x05⟩)]

/-- User mode. -/
def inUser : State := busy |> inMode (status false true false false false .usr)

/-- Thumb state, System mode. -/
def inThumb : State := busy |> inMode (status false false true false true .sys)

/-- Direct boot and not, an image and none, and a machine without the BIOS image in it, in both sets. -/
theorem witness_ResetDirectBoot_ResetToVector :
    (testParams .strict).directBoot = true ∧ Params.default.directBoot = false ∧
      (∃ image : Vector Byte 0x4000, (some image : Option (Vector Byte 0x4000)) ≠ none) ∧
      0 < min [(0x12 : Byte)].length 0x2000000 ∧
      (State.reset.bus = Bus.gba ∧ State.reset.params.biosImage = false ∧ State.reset.pc.toNat < 0x4000 ∧
        State.reset.cpsr.t = false) ∧
      (let s := { State.reset with pc := 0x3FFE, cpsr := { State.reset.cpsr with t := true } }
       s.bus = Bus.gba ∧ s.params.biosImage = false ∧ s.pc.toNat < 0x4000 ∧ s.cpsr.t = true) :=
  ⟨by decide, by decide, ⟨Vector.replicate 0x4000 0, by simp⟩, by decide, by decide +kernel, by decide +kernel⟩

/-- I/O bytes of a reset machine: DISPSTAT, whose bit 2 reads 1, KEYCNT, plain storage and SOUNDCNT_H. -/
theorem witness_ResetToVector_io :
    ioRead State.reset 4 = some 4 ∧ ioRead State.reset 0x132 = some 0 ∧ ioRead State.reset 0x133 = some 0 ∧
      (ioRegAt 0x204).1 = .plain ∧ (ioRegAt 0x83).1 = .soundCntH := by decide +kernel

theorem witness_EncodedInstructionDecodes :
    Instr.WellFormed (.bl .le 0xFFFFFF) ∧ Instr.WellFormed (.ldmRet .eq true false true 15 0x7FFF) ∧
      Instr.WellFormed (.tPop true 0xFF) := by decide

/-- A word with a should-be-zero bit set is read, and its field kept. -/
theorem witness_DecodedWordEncodesBack :
    decode (.arm 0xE1A10002) = .ok (.movRsi .al false 1 0 0 .lsl 2) ∧ decode (.thumb 0x47F7) = .ok (.tBx 1 true 6 7) := by
  decide +kernel

theorem witness_OneRowPerWord :
    armRows.any (fun r => r.matches 0xE0810002) = true ∧ thumbRows.any (fun r => r.matches 0x1888) = true ∧
      armRows.all (fun r => !r.matches 0xE1000010) = true ∧ thumbRows.all (fun r => !r.matches 0xDE00) = true := by
  decide +kernel

/-- A word of each unallocated space, the first and last of the Thumb gaps among them. -/
theorem witness_UnallocatedEncodings :
    decode (.thumb 0xB100) = .error (.unallocatedThumb 0xB100) ∧ decode (.thumb 0xBFFF) = .error (.unallocatedThumb 0xBFFF) ∧
      decode (.thumb 0xDE00) = .error (.unallocatedThumb 0xDE00) ∧
      decode (.thumb 0xE800) = .error (.unallocatedThumb 0xE800) ∧
      decode (.arm 0xE1000080) = .error (.unallocatedArm 0xE1000080) ∧
      decode (.arm 0xE1000010) = .error (.unallocatedArm 0xE1000010) ∧
      decode (.arm 0xE3000000) = .error (.unallocatedArm 0xE3000000) ∧
      decode (.arm 0xE0400090) = .error (.unallocatedArm 0xE0400090) ∧
      decode (.arm 0xE00000D0) = .error (.unallocatedArm 0xE00000D0) := by decide +kernel

theorem witness_StepRunsDecoded :
    (let s := arm7 |> placeCode (.arm 0xE3A00001)
     s.dmaResume = none ∧ s.dev.halted = false ∧ decode (fetch s).1 = .ok (.movImm .al false 0 0 0 1)) ∧
    (let s := arm7 |> placeCode (.thumb 0xDE00)
     s.dmaResume = none ∧ s.dev.halted = false ∧ decode (fetch s).1 = .error (.unallocatedThumb 0xDE00)) ∧
    (let s := arm7.setDev { arm7.dev with halted := true }
     s.dmaResume = none ∧ s.dev.halted = true) ∧
    ({ arm7 with dmaResume := some 3 } : State).dmaResume = some 3 := by decide +kernel

/-- The registers at the edges of the banks: R7, R8, R12 and R14 of FIQ mode, R12 and R13 of IRQ mode. -/
theorem witness_BankedRegisters :
    bankOf .fiq 7 = bankOf .usr 7 ∧ bankOf .fiq 8 ≠ bankOf .usr 8 ∧ bankOf .fiq 12 ≠ bankOf .irq 12 ∧
      bankOf .irq 12 = bankOf .usr 12 ∧ bankOf .irq 13 ≠ bankOf .svc 13 ∧ bankOf .und 14 ≠ bankOf .abt 14 ∧
      bankOf .sys 14 = bankOf .usr 14 := by decide

theorem witness_ConditionsOfInstructions :
    (condOf (.addImm .eq true 1 7 0 4) = some .eq ∧ Cond.eq ≠ .nv ∧ condPassed .eq busy.cpsr = false) ∧
      condOf (.b .nv 0) = some (Cond.ofBits 0b1111) := by decide +kernel

/-- `MOV` with a should-be-zero bit set, on both machines. -/
theorem witness_ShouldBeFields :
    let i : Instr := .movRsi .al false 1 0 0 .lsl 2
    decode (encode i) = .ok i ∧ ¬i.WellFormed ∧ (∀ c, condOf i = some c → condPassed c busy.cpsr = true) ∧
      (∀ c, condOf i = some c → condPassed c strictBusy.cpsr = true) ∧ busy.strict = false ∧
      strictBusy.strict = true := by
  refine ⟨by decide +kernel, by decide, ?_, ?_, by decide, by decide⟩ <;>
  · intro c hc
    cases hc
    decide

/-- The amounts at which the clauses about the shifter meet. -/
theorem witness_ShifterByImmediate_ShifterByRegister :
    (1 : BitVec 5) ≠ 0 ∧ (31 : BitVec 5) ≠ 0 ∧
      (1 ≤ (1 : BitVec 8).toNat ∧ (1 : BitVec 8).toNat ≤ 31) ∧ (1 ≤ (31 : BitVec 8).toNat ∧ (31 : BitVec 8).toNat ≤ 31) ∧
      32 < (33 : BitVec 8).toNat ∧ 32 < (255 : BitVec 8).toNat ∧ 32 ≤ (32 : BitVec 8).toNat ∧
      ((32 : BitVec 8) ≠ 0 ∧ (32 : BitVec 8).toNat % 32 = 0) ∧ ((224 : BitVec 8) ≠ 0 ∧ (224 : BitVec 8).toNat % 32 = 0) ∧
      (1 : BitVec 8).toNat % 32 ≠ 0 ∧ (255 : BitVec 8).toNat % 32 ≠ 0 := by decide

/-- An addition and a compare in each form; R15 as an operand on the ARM7TDMI, none on a strict machine. -/
theorem witness_DataProcessingResults :
    (DpOp.add.writesRd = true → (14 : Reg) ≠ 15) ∧ (DpOp.cmp.writesRd = true → (15 : Reg) ≠ 15) ∧
      Runs (dpImmInstr .add .al true 0 15 14 0 0xFF) busy ∧ Runs (dpRsiInstr .add .al true 0 15 14 31 .ror 15) busy ∧
      (Runs (dpRsrInstr .add .al true 0 15 14 3 .ror 15) busy ∧ (3 : Reg) ≠ 15 ∧ busy.strict = false) ∧
      Runs (dpImmInstr .cmp .al true 0 1 0 15 0xFF) strictBusy ∧ Runs (dpRsiInstr .cmp .al true 0 1 0 0 .lsl 2) strictBusy ∧
      (Runs (dpRsrInstr .cmp .al true 0 1 0 3 .lsr 2) strictBusy ∧ (3 : Reg) ≠ 15 ∧
        (DpOp.cmp.readsRn = true → (1 : Reg) ≠ 15) ∧ (2 : Reg) ≠ 15) := by
  refine ⟨by decide, by decide, runs_of_ready (by decide +kernel), runs_of_ready (by decide +kernel),
    ⟨runs_of_ready (by decide +kernel), by decide, by decide⟩, runs_of_ready (by decide +kernel),
    runs_of_ready (by decide +kernel), runs_of_ready (by decide +kernel), by decide, by decide, by decide⟩

/-- A branch and an exception return in each form, the target misaligned on the ARM7TDMI and aligned on a strict machine. -/
theorem witness_DataProcessingToPc :
    (DpOp.mov.writesRd = true ∧ DpOp.sub.writesRd = true) ∧
      (Runs (dpImmInstr .mov .al false 0 0 15 0 3) busy ∧ busy.strict = false) ∧
      (Runs (dpImmInstr .mov .al false 0 0 15 0 4) strictBusy ∧
        align4 (DpOp.mov.apply 0 (immShifted 0 4 false) strictBusy.cpsr).value =
          (DpOp.mov.apply 0 (immShifted 0 4 false) strictBusy.cpsr).value) ∧
      (Runs (dpImmInstr .sub .al true 0 14 15 0 4) inIrq ∧ Runs (dpRsiInstr .mov .al true 0 0 15 0 .lsl 14) inIrq ∧
        Runs (dpRsrInstr .mov .al true 0 0 15 2 .lsl 14) inIrq ∧
        inIrq.spsrOf inIrq.cpsr.mode = some ⟨true, false, false, true, false, false, true, 0x10⟩ ∧
        Psr.restored ⟨true, false, false, true, false, false, true, 0x10⟩ = some (status true false false true true .usr) ∧
        inIrq.strict = false) ∧
      Runs (dpRsiInstr .mov .al false 0 0 15 0 .lsl 14) busy ∧
      (Runs (dpRsrInstr .mov .al false 0 0 15 2 .lsl 14) busy ∧ (2 : Reg) ≠ 15) := by
  refine ⟨by decide, ⟨runs_of_ready (by decide +kernel), by decide⟩, ⟨runs_of_ready (by decide +kernel), by decide +kernel⟩,
    ⟨runs_of_ready (by decide +kernel), runs_of_ready (by decide +kernel), runs_of_ready (by decide +kernel),
      by decide +kernel, by decide +kernel, by decide⟩, runs_of_ready (by decide +kernel), runs_of_ready (by decide +kernel),
    by decide⟩

theorem witness_MultiplyResults :
    (Runs (.mul .al true 1 0 3 4) busy ∧ (15 : Reg) ∉ ([1, 3, 4] : List Reg) ∧ (1 : Reg) ≠ 4) ∧
      (Runs (.mul .al true 1 0 15 4) busy ∧ (15 : Reg) ∈ ([1, 15, 4] : List Reg)) ∧
      (Runs (.mul .al true 4 0 3 4) busy ∧ (15 : Reg) ∉ ([4, 3, 4] : List Reg)) ∧
      (Runs (.mla .al false 1 2 3 4) busy ∧ (15 : Reg) ∉ ([1, 2, 3, 4] : List Reg)) ∧
      Runs (.mla .al false 1 15 3 4) busy ∧ Runs (.mla .al false 4 2 3 4) busy ∧
      (Runs (.umull .al true 1 2 3 4) busy ∧ Runs (.umlal .al true 1 2 3 4) busy ∧ Runs (.smull .al true 1 2 3 4) busy ∧
        Runs (.smlal .al true 1 2 3 4) busy) ∧
      Runs (.smlal .al true 1 1 3 4) busy ∧ Runs (.umull .al true 1 2 15 4) busy ∧ Runs (.smull .al true 4 2 3 4) busy := by
  refine ⟨⟨runs_of_ready (by decide +kernel), by decide, by decide⟩, ⟨runs_of_ready (by decide +kernel), by decide⟩,
    ⟨runs_of_ready (by decide +kernel), by decide⟩, ⟨runs_of_ready (by decide +kernel), by decide⟩, ?_⟩
  refine ⟨runs_of_ready (by decide +kernel), runs_of_ready (by decide +kernel), ⟨?_, ?_, ?_, ?_⟩, ?_, ?_, ?_⟩ <;>
  exact runs_of_ready (by decide +kernel)

theorem witness_MrsReadsStatus :
    Runs (.mrs .al false 15 2 0 0 0) busy ∧ (Runs (.mrs .al true 15 2 0 0 0) inIrq ∧
      inIrq.spsrOf inIrq.cpsr.mode = some ⟨true, false, false, true, false, false, true, 0x10⟩) ∧
      (Runs (.mrs .al true 15 2 0 0 0) busy ∧ busy.cpsr.mode = .sys) ∧
      (Runs (.mrs .al true 15 2 0 0 0) inUser ∧ inUser.cpsr.mode = .usr) ∧ Runs (.mrs .al false 15 15 0 0 0) busy := by
  refine ⟨runs_of_ready (by decide +kernel), ⟨runs_of_ready (by decide +kernel), by decide +kernel⟩,
    ⟨runs_of_ready (by decide +kernel), by decide⟩, ⟨runs_of_ready (by decide +kernel), by decide +kernel⟩,
    runs_of_ready (by decide +kernel)⟩

/-- Every clause of the write procedure: a change of T, a value of M that is no mode, a write of both bytes, User mode, an
SPSR, no SPSR, and Rm = 15. -/
theorem witness_MsrWritesStatus :
    (Runs (.msrImm .al false 1 15 0 0x30) busy ∧ (1 : BitVec 4).getLsbD 0 = true ∧ busy.cpsr.mode ≠ .usr ∧
      (immShifted 0 0x30 busy.cpsr.c).value.getLsbD 5 ≠ busy.cpsr.t) ∧
    (Runs (.msrImm .al false 1 15 0 0x05) busy ∧ (immShifted 0 0x05 busy.cpsr.c).value.getLsbD 5 = busy.cpsr.t ∧
      Mode.ofBits ((immShifted 0 0x05 busy.cpsr.c).value.extractLsb' 0 5) = none) ∧
    (Runs (.msrImm .al false 9 15 0 0xD2) busy ∧ (immShifted 0 0xD2 busy.cpsr.c).value.getLsbD 5 = busy.cpsr.t ∧
      Mode.ofBits ((immShifted 0 0xD2 busy.cpsr.c).value.extractLsb' 0 5) ≠ none) ∧
    (Runs (.msrReg .al false 9 15 0 0 3) inUser ∧ (3 : Reg) ≠ 15 ∧ inUser.cpsr.mode = .usr) ∧
    (Runs (.msrReg .al true 9 15 0 0 3) inIrq ∧
      inIrq.spsrOf inIrq.cpsr.mode = some ⟨true, false, false, true, false, false, true, 0x10⟩) ∧
    (Runs (.msrReg .al true 9 15 0 0 3) busy ∧ busy.cpsr.mode = .sys) ∧ Runs (.msrReg .al false 9 15 0 0 15) busy := by
  refine ⟨⟨runs_of_ready (by decide +kernel), by decide, by decide, by decide +kernel⟩,
    ⟨runs_of_ready (by decide +kernel), by decide +kernel, by decide +kernel⟩,
    ⟨runs_of_ready (by decide +kernel), by decide +kernel, by decide +kernel⟩,
    ⟨runs_of_ready (by decide +kernel), by decide, by decide +kernel⟩,
    ⟨runs_of_ready (by decide +kernel), by decide +kernel⟩, ⟨runs_of_ready (by decide +kernel), by decide⟩,
    runs_of_ready (by decide +kernel)⟩

/-- User-mode instructions that complete: an MSR that may write the flags only, a store, and an SWI. -/
theorem witness_UserModeIsolation :
    inUser.cpsr.mode = .usr ∧ (∃ t, exec (.msrImm .al false 9 15 0 0xD2) inUser = .next t) ∧
      (∃ t, exec (.strImmPre .al true false 1 2 4) inUser = .next t) ∧ (∃ t, exec (.swi .al 6) inUser = .next t) :=
  ⟨by decide +kernel, next_of_completes (by decide +kernel), next_of_completes (by decide +kernel),
    next_of_completes (by decide +kernel)⟩

theorem witness_SwapResults :
    (Runs (.swp .al 1 2 0 3) busy ∧ Runs (.swpb .al 1 2 0 3) busy ∧ (15 : Reg) ∉ ([2, 3, 1] : List Reg) ∧ (1 : Reg) ≠ 3 ∧
      (1 : Reg) ≠ 2 ∧ StoreRuns (align4 (busy.x 1)) .word (busy.x 3) (loadRotated (busy.x 1) busy.begun).2 ∧
      StoreRuns (busy.x 1) .byte (busy.x 3) (cpuRead (busy.x 1) .byte busy.begun).2) ∧
    (Runs (.swp .al 15 2 0 3) busy ∧ Runs (.swpb .al 15 2 0 3) busy ∧ (15 : Reg) ∈ ([2, 3, 15] : List Reg)) ∧
    (Runs (.swp .al 1 1 0 3) busy ∧ Runs (.swpb .al 3 2 0 3) busy) := by
  refine ⟨⟨runs_of_ready (by decide +kernel), runs_of_ready (by decide +kernel), by decide, by decide, by decide, ?_, ?_⟩,
    ⟨runs_of_ready (by decide +kernel), runs_of_ready (by decide +kernel), by decide⟩, runs_of_ready (by decide +kernel),
    runs_of_ready (by decide +kernel)⟩ <;>
  · unfold StoreRuns
    decide +kernel

/-- A pre-indexed load that writes back, a post-indexed one, a load of R15, and a scaled register offset; on a strict
machine with distinct registers. -/
theorem witness_LoadWordOrByte :
    (Runs (ldrImmInstr .al true false true 1 2 0xFFF) strictBusy ∧ (1 : Reg) ≠ 15 ∧ (2 : Reg) ≠ 15 ∧ (1 : Reg) ≠ 2) ∧
      (Runs (ldrImmInstr .al false true true 1 1 4) busy ∧ busy.strict = false) ∧
      (Runs (ldrImmInstr .al true true false 15 15 4) busy ∧
        (addressOf (busy.armX 15) (offset12 4) true true false).writeBack = false) ∧
      Runs (ldrbImmInstr .al false true false 1 2 4) busy ∧
      (Runs (ldrRegInstr .al true true false 1 2 0 .ror 3) busy ∧ (3 : Reg) ≠ 15) ∧
      Runs (ldrRegInstr .al false true false 1 15 2 .lsl 3) busy ∧ Runs (ldrbRegInstr .al false true true 1 2 2 .lsl 3) busy := by
  refine ⟨⟨runs_of_ready (by decide +kernel), by decide, by decide, by decide⟩, ⟨runs_of_ready (by decide +kernel), by decide⟩,
    ⟨runs_of_ready (by decide +kernel), by decide +kernel⟩, runs_of_ready (by decide +kernel),
    ⟨runs_of_ready (by decide +kernel), by decide⟩, runs_of_ready (by decide +kernel), runs_of_ready (by decide +kernel)⟩

/-- What a load gives of RAM: an unaligned word across the mirrors' edge, and a halfword at an even and an odd address. -/
theorem witness_LoadWordOrByte_LoadHalfOrSigned_ram :
    busy.bus = Bus.gba ∧ isRam (region busy.bus 0x03FFFFFE) = true ∧
      (isRam (region busy.bus 0x02000002) = true ∧ (0x02000002 : Word).getLsbD 0 = false) ∧
      (isRam (region busy.bus 0x06017FFF) = true ∧ (0x06017FFF : Word).getLsbD 0 = true) := by decide +kernel

/-- The halfword forms at an odd address on the ARM7TDMI and at an even one on a strict machine. -/
theorem witness_LoadHalfOrSigned :
    (Runs (.ldrhImm .al true true false 1 2 0 1) busy ∧ busy.strict = false ∧
      (addressOf (busy.armX 1) (offsetHalf 0 1) true true false).addr.getLsbD 0 = true) ∧
      (Runs (.ldrshImm .al true true true 1 2 15 14) strictBusy ∧ Runs (.ldrsbImm .al true true true 1 2 15 14) strictBusy ∧
        (addressOf (strictBusy.armX 1) (offsetHalf 15 14) true true true).addr.getLsbD 0 = false ∧ (1 : Reg) ≠ 15 ∧
        (1 : Reg) ≠ 2) ∧
      (Runs (.ldrhReg .al false true false 1 1 0 3) busy ∧ Runs (.ldrsbReg .al false true false 1 1 0 3) busy ∧
        Runs (.ldrshReg .al false true false 1 1 0 3) busy ∧ (3 : Reg) ≠ 15) := by
  refine ⟨⟨runs_of_ready (by decide +kernel), by decide, by decide +kernel⟩, ⟨runs_of_ready (by decide +kernel),
    runs_of_ready (by decide +kernel), by decide +kernel, by decide, by decide⟩, runs_of_ready (by decide +kernel),
    runs_of_ready (by decide +kernel), runs_of_ready (by decide +kernel), by decide⟩

/-- The stores of each width; R15 as the stored word; a strict machine with an even address and distinct registers. -/
theorem witness_StoreSingle :
    (Runs (strImmInstr .al true true true 1 15 4) strictBusy ∧
      StoreRuns (align4 (strictBusy.x 1 + 4)) .word (strictBusy.armX12 15) strictBusy.begun) ∧
      (Runs (strbImmInstr .al false false true 1 2 4) busy ∧ StoreRuns (busy.x 1) .byte (busy.x 2) busy.begun) ∧
      (Runs (strRegInstr .al false true false 1 2 0 .lsr 3) busy ∧ Runs (strbRegInstr .al true true false 1 2 0 .lsl 3) busy ∧
        StoreRuns (align4 (busy.x 1)) .word (busy.armX12 2) busy.begun) ∧
      (Runs (.strhImm .al true true true 1 2 0 2) strictBusy ∧
        StoreRuns (align2 (strictBusy.x 1 + 2)) .half (strictBusy.armX12 2) strictBusy.begun ∧
        (strictBusy.x 1 + 2).getLsbD 0 = false) ∧
      (Runs (.strhReg .al false true false 1 1 0 3) busy ∧ StoreRuns (align2 (busy.x 1)) .half (busy.armX12 1) busy.begun) := by
  have r {i : Instr} {s : State} (h : ready i s = true) : Runs i s := runs_of_ready h
  unfold StoreRuns
  refine ⟨⟨r ?_, ?_⟩, ⟨r ?_, ?_⟩, ⟨r ?_, r ?_, ?_⟩, ⟨r ?_, ?_, ?_⟩, r ?_, ?_⟩ <;> decide +kernel

/-- Block transfers with the base listed and lowest, with the base listed and not lowest, with R15, and with nothing listed. -/
theorem witness_BlockTransfers :
    (Runs (.ldm .al false true true 1 0x8004) strictBusy ∧ (1 : Reg) ≠ 15 ∧ (0x8004 : BitVec 16) ≠ 0 ∧
      (0x8004 : BitVec 16).getLsbD (1 : Reg).toNat = false) ∧
      (Runs (.ldm .al true false true 1 0) busy ∧ busy.strict = false) ∧
      (Runs (.stm .al false true true 1 0x0006) strictBusy ∧ (regList (0x0006 : BitVec 16)).head? = some 1 ∧
        StoresRun (strictBusy.x 1) [strictBusy.x 1, strictBusy.x 2] strictBusy.begun) ∧
      (Runs (.stm .al true false true 2 0x8006) busy ∧ (regList (0x8006 : BitVec 16)).head? ≠ some 2 ∧
        StoresRun (busy.x 2 - 12) [busy.x 1, busy.x 2 - 12, busy.pc + 12] busy.begun) ∧
      (Runs (.stm .al false false false 1 0) busy ∧ StoresRun (busy.x 1 - 0x3C) [busy.pc + 12] busy.begun) := by
  have r {i : Instr} {s : State} (h : ready i s = true) : Runs i s := runs_of_ready h
  simp only [StoresRun, StoreRuns, and_true]
  refine ⟨⟨r ?_, ?_, ?_, ?_⟩, ⟨r ?_, ?_⟩, ⟨r ?_, ?_, ?_⟩, ⟨r ?_, ?_, ?_⟩, r ?_, ?_⟩ <;> decide +kernel

/-- Lists in RAM: two words from EWRAM into IWRAM, and sixteen around a mirror of palette RAM. -/
theorem witness_BlockTransfers_ram :
    busy.bus = Bus.gba ∧
      (∀ k < [(1 : Reg), 2].length, isRam (region busy.bus (0x02FFFFFC + BitVec.ofNat 32 (4 * k))) = true) ∧
      (List.replicate 16 (5 : Word)).length ≤ 16 ∧
      (∀ k < (List.replicate 16 (5 : Word)).length, isRam (region busy.bus (0x050003E2 + BitVec.ofNat 32 (4 * k))) = true) ∧
      (cell busy.bus 0x03000000 ≠ cell busy.bus 0x02FFFFFC ∧ cell busy.bus 0x03000001 ≠ cell busy.bus 0x02FFFFFF) := by
  decide +kernel

/-- The User-bank forms in IRQ mode, in System mode and with W = 1, and the instruction after one. -/
theorem witness_UserBankTransfers :
    (Runs (.ldmUsr .al false true false 1 0x6000) inIrq ∧ inIrq.cpsr.mode ≠ .usr ∧ inIrq.cpsr.mode ≠ .sys ∧
      Runs (.stmUsr .al false true false 1 0xE000) inIrq ∧
      StoresRun (inIrq.x 1) [inIrq.xUsr 13, inIrq.xUsr 14, inIrq.pc + 12] inIrq.begun) ∧
      (Runs (.ldmUsr .al false true true 1 2) inIrq ∧ Runs (.stmUsr .al false true true 1 2) inIrq) ∧
      (Runs (.ldmUsr .al false true false 1 2) busy ∧ Runs (.stmUsr .al false true false 1 2) busy ∧ busy.cpsr.mode = .sys) ∧
      (let s := { inIrq with lastUsrBank := true }
       s.strict = false ∧ s.lastUsrBank = true) ∧
      (let s := { (strictBusy |> inMode (status false false false false false .irq)) with lastUsrBank := true }
       s.strict = true ∧ s.lastUsrBank = true ∧ bankOf s.cpsr.mode 13 ≠ .usr ∧ bankOf s.cpsr.mode 12 = .usr) := by
  have r {i : Instr} {s : State} (h : ready i s = true) : Runs i s := runs_of_ready h
  simp only [StoresRun, StoreRuns, and_true]
  refine ⟨⟨r ?_, ?_, ?_, r ?_, ?_⟩, ⟨r ?_, r ?_⟩, ⟨r ?_, r ?_, ?_⟩, ?_, ?_⟩ <;> decide +kernel

/-- After a User-bank transfer in a strict machine: a store that names R13 of IRQ mode, one that names none of its bank, one
whose condition fails, and a word and a halfword of no row in Undefined mode and in another. -/
theorem witness_UserBankTransfers_next :
    let s := { (strictBusy |> inMode (status false false false false false .irq)) with lastUsrBank := true }
    let u := { (strictBusy |> inMode (status false false false false false .und)) with lastUsrBank := true }
    let i : Instr := .strImmPre .al true false 13 2 4
    (s.strict = true ∧ s.lastUsrBank = true ∧ i.WellFormed ∧
      (∀ c, condOf i = some c → condPassed c s.cpsr = true) ∧
      ∃ r ∈ accesses i s, r ≠ 15 ∧ bankOf s.cpsr.mode r ≠ .usr) ∧
    (¬∃ r ∈ accesses (.strImmPre .al true false 1 12 4) s, r ≠ 15 ∧ bankOf s.cpsr.mode r ≠ .usr) ∧
    (∃ c, condOf (.strImmPre .eq true false 13 2 4) = some c ∧ condPassed c s.cpsr = false) ∧
    (u.strict = true ∧ u.lastUsrBank = true ∧ u.cpsr.mode = .und ∧ condPassed (condAt (0xE7F000F0 : Word) 28) u.cpsr = true) ∧
    s.cpsr.mode ≠ .und ∧ (∀ w : Word, Code.thumb 0xDE00 = .arm w → condPassed (condAt w 28) u.cpsr = true) := by
  refine ⟨⟨by decide +kernel, by decide +kernel, by decide +kernel, ?_, 13, by decide +kernel, by decide +kernel,
    by decide +kernel⟩, by decide +kernel, ⟨.eq, rfl, by decide +kernel⟩, by decide +kernel, by decide +kernel, ?_⟩
  · intro c h
    cases h
    decide +kernel
  · intro w h
    cases h

/-- An exception return by LDM: with the base listed, without it, in System mode, and with an SPSR that holds no mode. -/
theorem witness_LdmReturns :
    (Runs (.ldmRet .al false true true 1 0x7FFF) inIrq ∧ (1 : Reg) ≠ 15 ∧ inIrq.strict = false ∧
      Psr.restored ⟨true, false, false, true, false, false, true, 0x10⟩ = some (status true false false true true .usr) ∧
      inIrq.spsrOf inIrq.cpsr.mode = some ⟨true, false, false, true, false, false, true, 0x10⟩) ∧
      Runs (.ldmRet .al false true true 1 0) inIrq ∧ (Runs (.ldmRet .al false true true 1 0) busy ∧ busy.cpsr.mode = .sys) ∧
      (Runs (.ldmRet .al false true true 1 0) inIrqBad ∧ Mode.ofBits 0x05 = none ∧
        inIrqBad.spsrOf inIrqBad.cpsr.mode = some ⟨true, false, false, true, false, false, true, 0x05⟩) := by
  have r {i : Instr} {s : State} (h : ready i s = true) : Runs i s := runs_of_ready h
  refine ⟨⟨r ?_, ?_, ?_, ?_, ?_⟩, r ?_, ⟨r ?_, ?_⟩, r ?_, ?_, ?_⟩ <;> decide +kernel

/-- One instruction of each case that stops every machine. -/
theorem witness_UnpredictableStops :
    Runs (dpRsrInstr .add .al true 0 1 2 15 .lsl 4) busy ∧
      (Runs (dpImmInstr .mov .al true 0 0 15 0 4) busy ∧ busy.cpsr.mode = .sys) ∧
      (Runs (dpRsiInstr .mov .al true 0 0 15 0 .lsl 14) inIrqBad ∧ Runs (dpRsrInstr .mov .al true 0 0 15 2 .lsl 14) inIrqBad ∧
        inIrqBad.strict = false ∧ Mode.ofBits 0x05 = none ∧
        inIrqBad.spsrOf inIrqBad.cpsr.mode = some ⟨true, false, false, true, false, false, true, 0x05⟩) ∧
      Runs (ldrImmInstr .al false true false 15 2 4) busy ∧ Runs (strbRegInstr .al true true true 15 2 4 .lsl 3) busy ∧
      Runs (strRegInstr .al true true true 1 2 4 .lsl 15) busy ∧ Runs (ldrbImmInstr .al true true true 1 15 4) busy ∧
      Runs (strbRegInstr .al false true false 1 15 4 .lsl 3) busy ∧ Runs (.ldrtReg .al true 1 15 0 .lsl 3) busy ∧
      Runs (.ldrhImm .al false true true 1 2 0 2) busy ∧ Runs (.strhReg .al true true true 15 2 0 3) busy ∧
      Runs (.ldrsbReg .al true true true 1 2 0 15) busy ∧ Runs (.ldrhImm .al true true true 1 15 0 2) busy ∧
      Runs (.ldrshReg .al false true false 1 15 0 3) busy ∧ Runs (.stm .al true true true 15 6) busy := by
  have r {i : Instr} {s : State} (h : ready i s = true) : Runs i s := runs_of_ready h
  refine ⟨r ?_, ⟨r ?_, ?_⟩, ⟨r ?_, r ?_, ?_, ?_, ?_⟩, r ?_, r ?_, r ?_, r ?_, r ?_, r ?_, r ?_, r ?_, r ?_, r ?_, r ?_, r ?_⟩ <;>
  decide +kernel

/-- One instruction of each case that stops a strict machine, and the two hazards of a store. -/
theorem witness_StrictStops :
    (strictBusy.strict = true ∧ strictBusy.lastUsrBank = false) ∧ Runs (dpRsrInstr .add .al true 0 15 2 3 .lsl 4) strictBusy ∧
      (Runs (dpImmInstr .mov .al false 0 0 15 0 3) strictBusy ∧ align4 (immShifted 0 3 false).value ≠ (immShifted 0 3 false).value) ∧
      Runs (ldrImmInstr .al false true false 1 1 4) strictBusy ∧ Runs (strRegInstr .al true true true 1 1 4 .lsl 3) strictBusy ∧
      (Runs (.strhImm .al true true false 1 2 0 1) strictBusy ∧
        (addressOf (strictBusy.armX 1) (offsetHalf 0 1) true true false).addr.getLsbD 0 = true) ∧
      (Runs (.ldrshReg .al false true false 1 1 0 3) strictBusy ∧
        (addressOf (strictBusy.armX 1) (strictBusy.x 3) false true false).addr.getLsbD 0 = false) ∧
      Runs (.ldm .al false true true 1 0) strictBusy ∧
      (Runs (.ldm .al false true true 1 2) strictBusy ∧ (2 : BitVec 16).getLsbD (1 : Reg).toNat = true) ∧
      (Runs (.stm .al false true true 1 3) strictBusy ∧ (regList (3 : BitVec 16)).head? ≠ some 1) ∧
      ((3 : BitVec 8).getLsbD (1 : LowReg).toNat = true ∧ (regList (3 : BitVec 8)).head? ≠ some (low 1)) ∧
      (hitsPrefetch 0x03000004 .word { strictBusy with pc := 0x03000000 } = true ∧
        hitsPrefetch 0x03000008 .word { strictBusy with pc := 0x03000000 } = true ∧
        hitsPrefetch 0x0300000C .word { strictBusy with pc := 0x03000000 } = false) ∧
      (touchesDmaCtl Bus.gba 3 0x040000DE .half = true ∧ (busWrite 0x040000DE .half 0x8800 busy).dev.dma[3].armed = true ∧
        (busWrite 0x040000DE .half 0x8800 busy).dev.dma[3].ctl.getLsbD 11 = true) ∧
      (touchesDmaCtl Bus.gba 0 0x040000B8 .word = true ∧ (busWrite 0x040000B8 .word 0x81800000 strictBusy).dev.dma[0].armed = true ∧
        (busWrite 0x040000B8 .word 0x81800000 strictBusy).dev.dma[0].srcCtl = 3) := by
  have r {i : Instr} {s : State} (h : ready i s = true) : Runs i s := runs_of_ready h
  refine ⟨⟨?_, ?_⟩, r ?_, ⟨r ?_, ?_⟩, r ?_, r ?_, ⟨r ?_, ?_⟩, ⟨r ?_, ?_⟩, r ?_, ⟨r ?_, ?_⟩, ⟨r ?_, ?_⟩, ⟨?_, ?_⟩, ⟨?_, ?_, ?_⟩,
    ⟨?_, ?_, ?_⟩, ?_, ?_, ?_⟩ <;> decide +kernel

/-- The stop of a store. -/
def stopOf (r : Except Fault State) : Option Fault :=
  match r with
  | .error e => some e
  | .ok _ => none

theorem error_of_stopOf {r : Except Fault State} {e : Fault} (h : stopOf r = some e) : r = .error e := by
  cases r with
  | error e' => exact congrArg _ (Option.some.inj h)
  | ok _ => cases h

/-- A strict machine that stores into the slots after it, in ARM state and in Thumb state: single stores, a swap, a second
word of a block. -/
def nearStore : State := { strictBusy with pc := 0x02FFFFFC }

def nearBlock : State := { strictBusy with pc := 0x03000000 }

def nearThumb : State :=
  { strictBusy with pc := 0x02FFFFFE, cpsr := status false false false false true .sys } |> regs [(.sys, 13, 0x03000004)]

theorem witness_StrictStops_stores :
    let e : Fault := .hazard .smcPrefetch
    (Runs (strImmInstr .al true true false 1 2 0) nearStore ∧
      cpuWrite (align4 (addressOf (nearStore.armX 1) (offset12 0) true true false).addr) .word (nearStore.armX12 2)
        nearStore.begun = .error e) ∧
      (Runs (strbRegInstr .al false true false 1 3 0 .lsl 2) nearStore ∧
        cpuWrite (nearStore.x 1) .byte (nearStore.x 3) nearStore.begun = .error e) ∧
      (Runs (.strhImm .al true true true 1 2 0 2) nearStore ∧
        cpuWrite (align2 (nearStore.x 1 + 2)) .half (nearStore.armX12 2) nearStore.begun = .error e) ∧
      (Runs (.swp .al 1 2 0 3) nearStore ∧
        cpuWrite (align4 (nearStore.x 1)) .word (nearStore.x 3) (loadRotated (nearStore.x 1) nearStore.begun).2 =
          .error e) ∧
      (Runs (.swpb .al 1 2 0 3) nearStore ∧
        cpuWrite (nearStore.x 1) .byte (nearStore.x 3) (cpuRead (nearStore.x 1) .byte nearStore.begun).2 = .error e) ∧
      (Runs (.stm .al false true false 1 0x000C) nearBlock ∧
        StoresStop (nearBlock.x 1) [nearBlock.x 2, nearBlock.x 3] nearBlock.begun e) ∧
      cpuWrite (align4 (nearThumb.x (low 1))) .word (nearThumb.x (low 2)) nearThumb.begun = .error e ∧
      cpuWrite (nearThumb.x (low 1)) .byte (nearThumb.x (low 2)) nearThumb.begun = .error e ∧
      StoresStop (nearThumb.x 13 - 4) [nearThumb.x 2] nearThumb.begun e ∧
      StoresStop (nearThumb.x (low 1)) [nearThumb.x 1, nearThumb.x 2] nearThumb.begun e := by
  have r {i : Instr} {s : State} (h : ready i s = true) : Runs i s := runs_of_ready h
  refine ⟨⟨r ?_, error_of_stopOf ?_⟩, ⟨r ?_, error_of_stopOf ?_⟩, ⟨r ?_, error_of_stopOf ?_⟩, ⟨r ?_, error_of_stopOf ?_⟩,
    ⟨r ?_, error_of_stopOf ?_⟩, ⟨r ?_, [nearBlock.x 2], _, [], rfl, ⟨⟨?_, ?_⟩, trivial⟩, error_of_stopOf ?_⟩,
    error_of_stopOf ?_, error_of_stopOf ?_, ⟨[], _, [], rfl, trivial, error_of_stopOf ?_⟩,
    ⟨[], _, [nearThumb.x 2], rfl, trivial, error_of_stopOf ?_⟩⟩ <;> decide +kernel

/-- A User-bank store of a list whose second word goes into the slots after it. -/
theorem witness_StrictStops_userBank :
    let s : State := { (strictBusy |> inMode (status false false true false false .irq)) with pc := 0x03000000 }
    Runs (.stmUsr .al false true false 1 0x000C) s ∧ s.cpsr.mode ≠ .usr ∧ s.cpsr.mode ≠ .sys ∧
      StoresStop (s.x 1) [s.xUsr 2, s.xUsr 3] s.begun (.hazard .smcPrefetch) := by
  intro s
  exact ⟨runs_of_ready (by decide +kernel), by decide +kernel, by decide +kernel, [s.xUsr 2], _, [], rfl,
    ⟨⟨by decide +kernel, by decide +kernel⟩, trivial⟩, error_of_stopOf (by decide +kernel)⟩

/-- Branches, the exchange in both sets, the exception instructions and the coprocessor. -/
theorem witness_BranchResults_to_CoprocessorStub :
    Runs (.b .al 0x800000) busy ∧ Runs (.bl .al 0x7FFFFF) busy ∧ (Runs (.bx .al 0xFFF 15) busy ∧ busy.strict = false) ∧
      (Runs (.bx .al 0xFFF 3) strictBusy ∧ (strictBusy.x 3).getLsbD 0 = true) ∧
      (let s := strictBusy |> regs [(.sys, 3, 2)]
       Runs (.bx .al 0xFFF 3) s ∧ Runs (.tBx 0 false 3 0) s ∧ s.strict = true ∧ (s.x 3).getLsbD 0 = false ∧
         (s.x 3).getLsbD 1 = true) ∧
      Runs (.tBx 0 true 7 0) inThumb ∧ Runs (.swi .al 6) strictBusy ∧ Runs (.tSwi 6) inThumb ∧ Runs (.und .al 0 0) strictBusy ∧
      (condPassed (condAt (0xE1000010 : BitVec 32) 28) strictBusy.cpsr = true ∧ strictBusy.lastUsrBank = false) ∧
      (condAt (0x01000010 : BitVec 32) 28 ≠ .nv ∧ condPassed (condAt (0x01000010 : BitVec 32) 28) busy.cpsr = false) ∧ condAt (0xF1000010 : BitVec 32) 28 = .nv ∧
      (Runs (.cdp .al 0 0 0 1 0 0) busy ∧ Runs (.ldc .al true true false true 1 0 1 0) busy ∧
        Runs (.stc .al true true false true 1 0 15 0) busy ∧ Runs (.mcr .al 0 1 0 15 0 0) busy ∧
        Runs (.mrc .al 0 1 15 14 0 0) { busy with params := { busy.params with cp := .undefined } }) := by
  have r {i : Instr} {s : State} (h : ready i s = true) : Runs i s := runs_of_ready h
  refine ⟨r ?_, r ?_, ⟨r ?_, ?_⟩, ⟨r ?_, ?_⟩, ⟨r ?_, r ?_, ?_, ?_, ?_⟩, r ?_, r ?_, r ?_, r ?_, ⟨?_, ?_⟩, ⟨?_, ?_⟩, ?_, r ?_,
    r ?_, r ?_, r ?_, r ?_⟩ <;> decide +kernel

/-- Thumb: the ARM7TDMI at every register and address, a strict machine within its conditions. -/
theorem witness_Thumb :
    (inThumb.strict = false ∧ strictBusy.strict = true ∧ strictBusy.lastUsrBank = false ∧ (1 : LowReg) ≠ 2) ∧
      (high true 7 = 15 ∧ high true 6 ≠ 15 ∧ high false 7 ≠ 15) ∧
      ((strictBusy.x (low 1) + strictBusy.x (low 2)).getLsbD 0 = false ∧
        (strictBusy.x (low 1) + strictBusy.x (low 3)).getLsbD 0 = true) ∧
      StoreRuns (align4 (inThumb.x (low 1))) .word (inThumb.x (low 2)) inThumb.begun ∧
      StoreRuns (inThumb.x (low 1) + 31) .byte (inThumb.x (low 2)) inThumb.begun ∧
      StoreRuns (align2 (inThumb.x (low 1) + 62)) .half (inThumb.x (low 2)) inThumb.begun ∧
      StoreRuns (align4 (inThumb.x 13 + 0x3FC)) .word (inThumb.x (low 2)) inThumb.begun ∧
      StoresRun (inThumb.x 13 - 8) [inThumb.x 1, inThumb.x 14] inThumb.begun ∧
      StoresRun (inThumb.x 13 - 0x40) [inThumb.pc + 6] inThumb.begun ∧
      StoresRun (inThumb.x (low 1)) [inThumb.x 1, inThumb.x 2] inThumb.begun := by
  simp only [StoresRun, StoreRuns, and_true]
  refine ⟨?_, ?_, ?_, ?_, ?_, ?_, ?_, ?_, ?_, ?_⟩ <;> decide +kernel

/-- Instructions of every shape that complete: register only, load with write-back, store, block, status, exception. -/
theorem witness_MemoryFrame_RegisterFrame_StatusFrame :
    (∃ t, exec (.addImm .al true 1 7 0 4) busy = .next t) ∧ (∃ t, exec (.ldrImmPre .al true true 1 2 4) busy = .next t) ∧
      (∃ t, exec (.strbImmPost .al true 4 2 1) busy = .next t) ∧ (∃ t, exec (.stm .al false true true 1 0x8007) busy = .next t) ∧
      (∃ t, exec (.msrImm .al false 9 15 0 0xD2) busy = .next t) ∧ (∃ t, exec (.tPush true 0xFF) inThumb = .next t) ∧
      (∃ t, exec (.swi .al 6) busy = .next t) ∧ (∃ t, exec (.ldmRet .al false true true 1 1) inIrq = .next t) := by
  refine ⟨?_, ?_, ?_, ?_, ?_, ?_, ?_, ?_⟩ <;> exact next_of_completes (by decide +kernel)

/-- RAM of every region, each width aligned, the last word of the ROM image, the BIOS from within, and the fetch in RAM, in
the BIOS and in ROM. -/
theorem witness_RamReadsAndWrites :
    busy.bus = Bus.gba ∧ inThumb.bus = Bus.gba ∧
      (region Bus.gba 0x0AFFFFFC = .rom ∧ 0x0AFFFFFC % 0x2000000 + Width.word.bytes ≤ busy.params.romSize) ∧
      (region Bus.gba 0x00003FFC = .bios ∧ region Bus.gba (startingAt 0x100 busy).pc = .bios ∧
        (startingAt 0x100 busy).params.biosImage = true) ∧
      (region Bus.gba busy.pc = .rom ∧ busy.pc.toNat % 0x2000000 / 4 * 4 + 4 ≤ busy.params.romSize) ∧
      (isRam (region Bus.gba 0x02FFFFFF) = true ∧ Width.byte.align 0x02FFFFFF = 0x02FFFFFF ∧ region Bus.gba 0x02FFFFFF = .ewram) ∧
      (isRam (region Bus.gba 0x03000000) = true ∧ Width.byte.align 0x03000000 = 0x03000000 ∧ region Bus.gba 0x03000000 = .iwram) ∧
      (isRam (region Bus.gba 0x05000002) = true ∧ Width.half.align 0x05000002 = 0x05000002) ∧
      (isRam (region Bus.gba 0x0601FFFC) = true ∧ Width.word.align 0x0601FFFC = 0x0601FFFC) ∧ isRam (region Bus.gba 0x070003FC) = true ∧
      (let s := startingAt 0x03007FFC busy
       isRam (region s.bus s.pc) = true ∧ s.cpsr.t = false) ∧
      (let s := startingAt 0x00003FFE inThumb
       region s.bus s.pc = .bios ∧ s.params.biosImage = true ∧ s.cpsr.t = true) := by decide +kernel

/-- Two addresses of each region whose offsets agree, two whose do not, and the two ends of the folded part of VRAM. -/
theorem witness_MirrorsShareStorage :
    (region Bus.gba 0x02000000 = .ewram ∧ region Bus.gba 0x02FC0000 = .ewram ∧ 0x02000000 % 0x40000 = 0x02FC0000 % 0x40000) ∧
      (region Bus.gba 0x03007FFF = .iwram ∧ region Bus.gba 0x03FFFFFF = .iwram ∧ 0x03007FFF % 0x8000 = 0x03FFFFFF % 0x8000) ∧
      (region Bus.gba 0x05000000 = .palette ∧ region Bus.gba 0x05000400 = .palette) ∧ (region Bus.gba 0x070003FF = .oam ∧ region Bus.gba 0x07000000 = .oam) ∧
      (region Bus.gba 0x06018000 = .vram ∧ region Bus.gba 0x06010000 = .vram ∧ 0x06018000 % 0x20000 = 0x06010000 % 0x20000 + 0x8000) ∧
      (region Bus.gba 0x0601FFFF = .vram ∧ region Bus.gba 0x06FF7FFF = .vram ∧ 0x0601FFFF % 0x20000 = 0x06FF7FFF % 0x20000 + 0x8000) ∧
      (region Bus.gba 0x08000010 = .rom ∧ region Bus.gba 0x0A000010 = .rom ∧ region Bus.gba 0x0C000010 = .rom ∧
        0x08000010 % 0x2000000 = 0x0C000010 % 0x2000000) ∧
      region Bus.gba 0x00003FFF = .bios ∧ region Bus.gba 0x040003FF = .io ∧
      region Bus.gba 0x03000000 ≠ region Bus.gba 0x02000000 ∧
      (let r : MapRow := ⟨0x20000000, 0x2FFFFFFF, .ewram, 0⟩
       (r.first ≤ (0x20000000 : Word).toNat ∧ (0x20000000 : Word).toNat ≤ r.last) ∧
         ¬(r.first ≤ (0x30000000 : Word).toNat ∧ (0x30000000 : Word).toNat ≤ r.last)) := by decide +kernel

/-- The last BG byte and the first OBJ byte of VRAM, in mode 0 and in mode 3, the folded part, palette and OAM. -/
theorem witness_ByteWritesToVideoMemory :
    busy.bus = Bus.gba ∧ region Bus.gba 0x05000001 = .palette ∧ region Bus.gba 0x07000001 = .oam ∧
      ((busy.mem.read 0x04000000).toNat % 8 = 0 ∧ region Bus.gba 0x0600FFFF = .vram ∧ 0x0600FFFF % 0x20000 < 0x10000 ∧
        region Bus.gba 0x06010000 = .vram ∧ 0x10000 ≤ 0x06010000 % 0x20000) ∧
      (let s := busy |> data [(.byte, 0x04000000, 3)]
       (s.mem.read 0x04000000).toNat % 8 = 3 ∧ 0x06013FFF % 0x20000 < 0x14000 ∧ 0x14000 ≤ 0x06014000 % 0x20000 ∧
         0x0601BFFF % 0x20000 - 0x8000 < 0x14000 ∧ 0x14000 ≤ 0x0601C000 % 0x20000 - 0x8000) := by decide +kernel

theorem witness_OpenBusAndIgnoredWrites :
    region Bus.gba 0x00004000 = .unmapped ∧ region Bus.gba 0x10000000 = .unmapped ∧ region Bus.gba 0x0E000000 = .save ∧
      (region Bus.gba 0x00000000 = .bios ∧ region busy.bus busy.pc ≠ .bios) ∧
      (region Bus.gba 0x09000000 = .rom ∧ busy.params.romSize ≤ 0x09000000 % 0x2000000) ∧
      busy.bus = Bus.gba ∧ (State.reset.bus = Bus.gba ∧ State.reset.params.biosImage = false) ∧
      ((0x56 ≤ 0x56 ∧ 0x56 ≤ 0x5F) ∧ (0xB0 ≤ 0xD4 ∧ 0xD4 ≤ 0xDF ∧ (0xD4 - 0xB0) % 12 < 10) ∧ (0x301 ≤ 0x3FF ∧ 0x3FF ≤ 0x3FF)) ∧
      (0xD4 % Width.word.bytes = 0 ∧ ∀ k < Width.word.bytes, 0xB0 ≤ 0xD4 + k ∧ 0xD4 + k ≤ 0xDF ∧ (0xD4 + k - 0xB0) % 12 < 10) ∧
      (0x86 % Width.half.bytes = 0 ∧ ∀ k < Width.half.bytes, 0x86 ≤ 0x86 + k ∧ 0x86 + k ≤ 0x87) ∧
      Width.word.align 0x08000000 = 0x08000000 ∧ Width.half.align 0x00003FFE = 0x00003FFE := by decide +kernel

/-- The default map, for the registers read and written through the bus, and FIFOs within their bound. -/
theorem witness_InterruptRegisters_FifoDrainAndRefill :
    busy.bus = Bus.gba ∧ FifosBounded busy.dev ∧
      FifosBounded { busy.dev with fifoA := ⟨List.replicate 30 7, 3⟩, fifoB := ⟨List.replicate 32 7, 0⟩ } := by
  refine ⟨rfl, ?_, ?_⟩ <;> (show _ ∧ _; decide +kernel)

/-- Plain storage of each width: DISPCNT with green swap, WAITCNT, POSTFLG. -/
theorem witness_InterruptRegisters_plain :
    (0 % Width.word.bytes = 0 ∧ ∀ k < Width.word.bytes, 0 + k ≤ 3) ∧
      (0x204 % Width.half.bytes = 0 ∧ ∀ k < Width.half.bytes, 0x204 ≤ 0x204 + k ∧ 0x204 + k ≤ 0x205) ∧
      (0x300 % Width.byte.bytes = 0 ∧ ∀ k < Width.byte.bytes, 0x300 + k = 0x300) := by decide

/-- The registers an entry leaves: R13 of the entered mode, R14 of another, R8 of FIQ mode. -/
theorem witness_ExceptionEntry :
    ((13 : Reg) ≠ 15 ∧ ¬((13 : Reg) = 14 ∧ Mode.irq = Exc.irq.mode)) ∧
      ((14 : Reg) ≠ 15 ∧ ¬((14 : Reg) = 14 ∧ Mode.usr = Exc.irq.mode)) ∧
      ((8 : Reg) ≠ 15 ∧ ¬((8 : Reg) = 14 ∧ Mode.fiq = Exc.fiq.mode)) ∧ Mode.svc ≠ Exc.irq.mode := by decide

theorem witness_ReturnUndoesEntry :
    (strictBusy.lastUsrBank = false ∧ alignFor strictBusy.cpsr.t strictBusy.pc = strictBusy.pc) ∧
      (inThumb.strict = false ∧ alignFor inThumb.cpsr.t 0x08000002 = 0x08000002) := by decide +kernel

/-- A poll that takes an IRQ, one that is masked, one with the FIQ line true, and one with both line and mask. -/
theorem witness_InterruptPoll :
    (let s := busy.setDev { busy.dev with ie := 1, iflags := 1, ime := true, halted := true }
     s.fiqLine = false ∧ (poll s).dev.ime = true ∧ (poll s).dev.ie &&& (poll s).dev.iflags ≠ 0 ∧ s.cpsr.i = false) ∧
      (let s := (busy.setDev { busy.dev with ie := 1, iflags := 1, ime := true }) |>
          inMode ⟨false, false, false, false, true, true, false, .sys⟩
       s.fiqLine = false ∧ s.cpsr.i = true) ∧
      (let s := { busy with params := { busy.params with fiqLine := some true } }
       s.fiqLine = true ∧ s.cpsr.f = false) ∧
      (let s := { busy with params := { busy.params with fiqLine := some true } } |>
          inMode ⟨false, false, false, false, true, true, false, .sys⟩
       s.fiqLine = true ∧ s.cpsr.f = true) := by decide +kernel

/-- A timer that counts with each prescaler, one at 0xFFFF, a cascading one, a stopped one, and both sides of the start. -/
theorem witness_TimersCount :
    (let s := busy.setDev (busy.dev.setTimer 0 ⟨0xFFFE, 5, 1, true, true, true, 63⟩)
     s.dev.timers[(0 : Fin 4)].enable = true ∧ s.dev.timers[(0 : Fin 4)].count < 64 ∧
       s.dev.timers[(0 : Fin 4)].counter.toNat + (s.dev.timers[(0 : Fin 4)].count + 64) / 64 < 0x10000) ∧
      (let s := busy.setDev (busy.dev.setTimer 3 ⟨0xFFFF, 5, 3, true, true, true, 0⟩)
       s.dev.timers[(3 : Fin 4)].counter = 0xFFFF ∧ (3 : Fin 4) ≠ 0 ∧ s.dev.timers[(3 : Fin 4)].enable = true ∧
         s.dev.timers[(3 : Fin 4)].cascade = true) ∧
      (busy.dev.timers[(1 : Fin 4)].counter ≠ 0xFFFF ∧ busy.dev.timers[(1 : Fin 4)].enable = false) ∧
      (let s := busy.setDev (busy.dev.setTimer 2 ⟨0xFFFF, 5, 3, true, true, true, 0⟩)
       (2 : Fin 4).val = (1 : Fin 4).val + 1 ∧ s.dev.timers[(2 : Fin 4)].cascade = true ∧
         s.dev.timers[(1 : Fin 4)].enable = false) ∧
      busy.bus = Bus.gba ∧ ((0x80 : Word).getLsbD 7 = true ∧ ¬((0x7F : Word).getLsbD 7 = true)) := by decide +kernel

/-- A write that arms a channel, one that keeps it armed, and one that disarms it; a count of 0 and of 1. -/
theorem witness_DmaArming :
    busy.bus = Bus.gba ∧
      ((0x8000 : Word).getLsbD 15 = true ∧ busy.dev.dma[(3 : Fin 4)].armed = false ∧ busy.dev.dma[(3 : Fin 4)].cntL = 0) ∧
      (let s := busy.setDev (busy.dev.setDma 3 ⟨0, 0, 1, 0x9000, 0, 0, 1, false⟩)
       (0x8000 : Word).getLsbD 15 = true ∧ s.dev.dma[(3 : Fin 4)].armed = true ∧ s.dev.dma[(3 : Fin 4)].timing ≠ 0) ∧
      (0x7FFF : Word).getLsbD 15 = false := by decide +kernel

/-- The addresses of two words read from IWRAM, ascending. -/
def wordsFrom (k : Nat) : Word := 0x03000000 + BitVec.ofNat 32 k * 4

/-- The addresses of two words written to EWRAM, descending. -/
def wordsTo (k : Nat) : Word := 0x02000008 + BitVec.ofNat 32 k * (0 - 4)

/-- Two words from IWRAM, ascending, to EWRAM, descending, repeated at each VBlank. -/
theorem witness_DmaTransfers :
    busy.bus = Bus.gba ∧
      (let c : DmaChannel := ⟨0x03000000, 0x02000008, 2, 0xD620, 0x03000000, 0x02000008, 2, true⟩
     c.width 3 = .word ∧ c.cnt = 2 ∧ c.ctl.extractLsb' 7 2 = 0 ∧ c.ctl.extractLsb' 5 2 = 1 ∧ c.ctl.getLsbD 9 = true ∧
       c.ctl.extractLsb' 12 2 = 1) ∧
      (∀ k < 2, isRam (region busy.bus (wordsFrom k)) = true ∧ isRam (region busy.bus (wordsTo k)) = true) ∧
      (∀ j < 2, ∀ k < 2, ∀ x < 4, ∀ y < 4,
        (j ≠ k → cell busy.bus (wordsTo j + BitVec.ofNat 32 x) ≠ cell busy.bus (wordsTo k + BitVec.ofNat 32 y)) ∧
        cell busy.bus (wordsTo j + BitVec.ofNat 32 x) ≠ cell busy.bus (wordsFrom k + BitVec.ofNat 32 y)) ∧
      (⟨0, 0x040000A0, 0, 0xB600, 0, 0, 0, true⟩ : DmaChannel).timing = 3 ∧
      (let s := busy.setDev ((busy.dev.setDma 1 ⟨0, 0, 1, 0x8000, 0, 0, 1, true⟩).setDma 2 ⟨0, 0, 1, 0x8000, 0, 0, 1, true⟩)
       s.dev.dma[(1 : Fin 4)].due = true ∧ s.dev.dma[(2 : Fin 4)].due = true ∧
         ∀ m : Fin 4, m < 1 → s.dev.dma[m].due = false) := by
  have apart : ∀ j k : Fin 2, ∀ x y : Fin 4,
      (j.val ≠ k.val → cell busy.bus (wordsTo j + BitVec.ofNat 32 x) ≠ cell busy.bus (wordsTo k + BitVec.ofNat 32 y)) ∧
        cell busy.bus (wordsTo j + BitVec.ofNat 32 x) ≠ cell busy.bus (wordsFrom k + BitVec.ofNat 32 y) := by decide +kernel
  refine ⟨rfl, by decide +kernel, by decide +kernel,
    fun j hj k hk x hx y hy => apart ⟨j, hj⟩ ⟨k, hk⟩ ⟨x, hx⟩ ⟨y, hy⟩, by decide +kernel, ?_⟩
  intro s
  refine ⟨by decide +kernel, by decide +kernel, ?_⟩
  decide +kernel

/-- A state with a byte in memory, a byte in a FIFO and an armed channel meets the invariant, and steps. -/
theorem witness_StepKeepsInvariant :
    let s := (busy |> data [(.byte, 0x03000000, 5)]).setDev
      ((busy.dev.setDma 1 ⟨0, 0, 1, 0x8000, 0x03000000, 0x02000000, 1, true⟩))
    Inv s ∧ ∃ t, step s = .next t := by
  intro s
  refine ⟨⟨?_, ?_, ?_, ?_, ?_⟩, ?_⟩
  · show alignFor _ _ = _
    decide +kernel
  · show s.mem.wf
    decide +kernel
  · intro c hc
    have h : s.mem = [(0x03000000, 5)] := by decide +kernel
    rw [h, List.mem_singleton] at hc
    subst hc
    exact ⟨.iwram, 0, by decide, by decide⟩
  · show _ ∧ _
    decide +kernel
  · show ∀ n : Fin 4, _
    decide +kernel
  · have h : holds (fun _ => true) s = true := by decide +kernel
    unfold holds at h
    split at h
    · exact ⟨_, by assumption⟩
    · cases h
    · cases h

/-- Under a map of its own (log entry 35) an address reaches the I/O register its row names, with its side effect, the first
row that holds it decides, and the table's other rows stand as they do. -/
theorem test_bus_parameter :
    let p := { testParams .arm7tdmi with
      bus := [⟨0x10000000, 0x100003FF, .io, 0⟩, ⟨0x02000000, 0x0203FFFF, .iwram, 0x100⟩] ++ Bus.gba }
    let s := { boot with params := p }
    (busWrite 0x10000208 .half 1 s).dev.ime = true ∧
      (busWrite 0x10000301 .byte 0 s).dev.halted = true ∧
      byteAt (busWrite 0x02000004 .byte 0x5A s) 0x03000104 = 0x5A ∧
      region s.bus 0x02040000 = .ewram ∧ region Bus.gba 0x10000208 = .unmapped := by decide +kernel

/-- An advance and one that goes on with an unfinished DMA advance, both of a machine whose poll takes an IRQ. -/
theorem witness_DevicesTouchCpuByInterrupt :
    let s := busy.setDev { busy.dev with ie := 1, iflags := 1, ime := true }
    (advanceDevices s).cpsr.mode = .irq ∧ (dmaPhase 5 s).cpsr.mode = .irq := by decide +kernel

/-- Word transfers of two units by DMA3 with source control 3 and DRQ, which a transfer left there, in a strict machine: the
source moves up (log entry 36). -/
theorem test_dma_source_control_3 :
    let s := strictBusy.setDev (strictBusy.dev.setDma 3 ⟨0, 0, 2, 0x8D80, 0x03000000, 0x02000000, 2, true⟩)
    s.strict = true ∧ (dmaRun 3 s).dev.dma[(3 : Fin 4)].src = 0x03000008 := by decide +kernel

end Sys2Proof.Tests
end

/-!
PROOFS. Should-be-zero and should-be-one fields (spec/00_scope.md rule R21): an instruction whose condition passes is
its proper form, behind the case `sbz-sbo` of its should-be fields.
-/

namespace Sys2Proof.Machine

-- The should-be fields of an instruction

/-- The should-be fields of an instruction hold their required values (R21). -/
def shouldBeHeld : Instr → Bool
  | .tstImm _ _ sbz _ _ | .tstRsi _ _ sbz _ _ _ | .tstRsr _ _ sbz _ _ _ | .teqImm _ _ sbz _ _ | .teqRsi _ _ sbz _ _ _
  | .teqRsr _ _ sbz _ _ _ | .cmpImm _ _ sbz _ _ | .cmpRsi _ _ sbz _ _ _ | .cmpRsr _ _ sbz _ _ _ | .cmnImm _ _ sbz _ _
  | .cmnRsi _ _ sbz _ _ _ | .cmnRsr _ _ sbz _ _ _ | .movImm _ _ sbz _ _ _ | .movRsi _ _ sbz _ _ _ _
  | .movRsr _ _ sbz _ _ _ _ | .mvnImm _ _ sbz _ _ _ | .mvnRsi _ _ sbz _ _ _ _ | .mvnRsr _ _ sbz _ _ _ _
  | .mul _ _ _ sbz _ _ | .swp _ _ _ sbz _ | .swpb _ _ _ sbz _ | .strhReg _ _ _ _ _ _ sbz _
  | .ldrhReg _ _ _ _ _ _ sbz _ | .ldrsbReg _ _ _ _ _ _ sbz _ | .ldrshReg _ _ _ _ _ _ sbz _ => shouldBeZero sbz
  | .mrs _ _ sbo _ sbzA sbzB sbzC => shouldBeOne sbo && shouldBeZero sbzA && shouldBeZero sbzB && shouldBeZero sbzC
  | .msrReg _ _ _ sbo sbzA sbzB _ => shouldBeOne sbo && shouldBeZero sbzA && shouldBeZero sbzB
  | .msrImm _ _ _ sbo _ _ => shouldBeOne sbo
  | .bx _ sbo _ => shouldBeOne sbo
  | .tBx sbzA _ _ sbzB => shouldBeZero sbzA && shouldBeZero sbzB
  | _ => true

/-- An instruction is well formed when its proper form is and its should-be fields hold their required values. -/
theorem wf_eq_proper_and_held (i : Instr) : i.wf = ((proper i).wf && shouldBeHeld i) := by
  cases i <;> simp [Instr.wf, proper, shouldBeHeld, shouldBeZero, shouldBeOne, Bool.and_assoc]

-- The meaning of an instruction by its proper form

/-- The gate of an ARM instruction whose condition passes is the one of right should-be fields, behind `sbz-sbo`. -/
theorem armGate_eq_unpredIf {c : Cond} {s : State} (hc : condPassed c s.cpsr = true) (sb : Bool) (regs : List Reg)
    (body : State → Outcome) :
    armGate c sb regs s body = unpredIf s (!sb) .sbzSbo (armGate c true regs s body) := by
  unfold armGate
  rw [if_neg (condPassed_nv hc), if_neg (condPassed_nv hc), hc]
  rfl

/-- An instruction whose condition passes is its proper form, behind `sbz-sbo` (R21). -/
theorem exec_eq_unpredIf_proper {i : Instr} {s : State} (hp : ∀ c, condOf i = some c → condPassed c s.cpsr = true) :
    exec i s = unpredIf s (!shouldBeHeld i) .sbzSbo (exec (proper i) s) := by
  cases i with
  | tstImm | tstRsi | tstRsr | teqImm | teqRsi | teqRsr | cmpImm | cmpRsi | cmpRsr | cmnImm | cmnRsi | cmnRsr
  | movImm | movRsi | movRsr | mvnImm | mvnRsi | mvnRsr | mul | mrs | msrReg | msrImm | swp | swpb | bx
  | strhReg | ldrhReg | ldrsbReg | ldrshReg => exact armGate_eq_unpredIf (hp _ rfl) _ _ _
  | _ => rfl

-- The proper form is well formed

/-- A word of a row that is apart from all rows of a list matches none of them. -/
theorem lookupRow_eq_none {n : Nat} {rows : List (Row n)} {r : Row n}
    (apart : ∀ q ∈ rows, (r.pattern ^^^ q.pattern) &&& r.mask &&& q.mask ≠ 0) {w : BitVec n}
    (hw : r.matches w = true) : lookupRow rows w = none := by
  have none_matches : rows.find? (fun q => q.matches w) = none :=
    List.find?_eq_none.mpr fun q hq => Bool.eq_false_iff.mp (Row.disjoint (apart q hq) w hw)
  unfold lookupRow
  rw [none_matches]

/-- The row that a conditional branch with the condition `al` would have, were it of format T16 (R160). -/
def branchAlRow : Row 16 := ⟨0xFF00, 0xDE00, fun h => .tBCond .al (h.extractLsb' 0 8)⟩

/-- The halfword of a conditional branch with the condition `al` matches no row (R160, R171). -/
theorem lookupRow_branch_al (off : BitVec 8) : lookupRow thumbRows (0b1101#4 ++ Cond.al.bits ++ off) = none := by
  refine lookupRow_eq_none (r := branchAlRow) (by decide) ?_
  show (0b1101#4 ++ 0b1110#4 ++ off &&& (15#4 ++ 15#4 ++ 0#8) == 13#4 ++ 14#4 ++ 0#8) = true
  simp only [BitVec.and_append, BitVec.and_zero, BitVec.reduceAnd, beq_self_eq_true]

/-- The halfword of a conditional branch with the condition `nv` is one of `T_SWI` (R160, R473). -/
theorem lookupRow_branch_nv (off : BitVec 8) :
    lookupRow thumbRows (0b1101#4 ++ Cond.nv.bits ++ off) = some (.tSwi off) := by
  obtain ⟨_, r, hr, hm, hb⟩ := Laws.Encoding.tSwi off rfl
  exact (lookupRow_eq thumbRows_pairwise (List.mem_of_getElem? hr) hm).trans (congrArg some hb)

/-- A halfword decodes to what its row in the table gives (R150). -/
theorem decode_thumb_eq_ok {h : BitVec 16} {i : Instr} :
    decode (.thumb h) = .ok i ↔ lookupRow thumbRows h = some i := by
  show decodeThumb h = .ok i ↔ _
  unfold decodeThumb
  split <;> simp [*]

/-- A conditional branch that its halfword decodes to has a condition of format T16 (R160). -/
theorem thumbBranch_of_decode {c : Cond} {off : BitVec 8}
    (h : decode (encode (.tBCond c off)) = .ok (.tBCond c off)) : c.thumbBranch = true := by
  have row : lookupRow thumbRows (0b1101#4 ++ c.bits ++ off) = some (.tBCond c off) := decode_thumb_eq_ok.mp h
  cases c with
  | al => rw [lookupRow_branch_al] at row; cases row
  | nv => rw [lookupRow_branch_nv] at row; cases row
  | _ => rfl

/-- The proper form of an instruction that a word decodes to is well formed, unless its condition is the reserved one:
the encoding check of an ARM instruction asks nothing else, and that of a Thumb instruction nothing, a conditional
branch apart. -/
theorem proper_wellFormed {i : Instr} (hd : decode (encode i) = .ok i) (hc : ∀ c, condOf i = some c → c ≠ .nv) :
    (proper i).WellFormed := by
  cases i with
  | tBCond c off => exact thumbBranch_of_decode hd
  | _ => simp_all [Instr.WellFormed, Instr.wf, proper, condOf, Cond.allocated, shouldBeZero, shouldBeOne]

/-- Settles O12: the word is ill formed by its should-be fields alone, since its proper form is well formed, and the
instruction is that proper form behind the case `sbz-sbo`. -/
theorem shouldBeFields : Obligations.ShouldBeFields := by
  intro i s hd hw hp
  have hproper : (proper i).WellFormed := proper_wellFormed hd fun c hc => condPassed_nv (hp c hc)
  have hheld : shouldBeHeld i = false := by simpa [Instr.WellFormed, wf_eq_proper_and_held i, hproper] using hw
  rw [exec_eq_unpredIf_proper hp, hheld]
  exact ⟨fun hs => by simp [unpredIf, hs], fun hs => ⟨unpredIf_lenient hs _ _ _, hproper⟩⟩

end Sys2Proof.Machine

/-!
PROOFS. The banked register file (spec/10_state.md rule R33): a physical register determines its column and its number,
so a register write shows in another mode exactly where the two share both.
-/

namespace Sys2Proof.Machine

-- Where a register and an SPSR lie

/-- The column and the number of a physical register in the table of R33: what `physReg` and `bankOf` say together, read
backwards. -/
def columnOf (n : Fin 30) : Mode × Reg :=
  if n < 15 then (.usr, BitVec.ofNat 4 n)
  else if n < 22 then (.fiq, BitVec.ofNat 4 (n - 7))
  else if n < 24 then (.irq, BitVec.ofNat 4 (n - 9))
  else if n < 26 then (.svc, BitVec.ofNat 4 (n - 11))
  else if n < 28 then (.abt, BitVec.ofNat 4 (n - 13))
  else (.und, BitVec.ofNat 4 (n - 15))

/-- The table of R33 gives back the bank and the number of a register below R15. -/
theorem columnOf_physReg (m : Mode) : ∀ i : Reg, i ≠ 15 → columnOf (physReg m i) = (bankOf m i, i) := by
  cases m <;> decide

/-- A register lies where the mode of its bank has it (R33). -/
theorem physReg_bankOf (m : Mode) : ∀ i : Reg, physReg (bankOf m i) i = physReg m i := by
  cases m <;> decide

/-- Below R15, a register of one mode and one of another are the same physical register exactly where they have one
number and lie in one bank (R33). -/
theorem physReg_eq_iff {i j : Reg} (hi : i ≠ 15) (hj : j ≠ 15) (m k : Mode) :
    physReg m i = physReg k j ↔ i = j ∧ bankOf m i = bankOf k j := by
  constructor
  · intro h
    have columns : (bankOf m i, i) = (bankOf k j, j) := by
      rw [← columnOf_physReg m i hi, ← columnOf_physReg k j hj, h]
    exact ⟨congrArg Prod.snd columns, congrArg Prod.fst columns⟩
  · rintro ⟨rfl, h⟩
    rw [← physReg_bankOf m, ← physReg_bankOf k, h]

/-- Two modes keep their SPSR in one place exactly where they are one mode, User and System mode apart (R33, R56). -/
theorem Mode.spsrIndex_eq_some_iff {m k : Mode} {n : Fin 5} (hm : m.spsrIndex = some n) :
    k.spsrIndex = some n ↔ m = k := by
  cases m <;> cases hm <;> cases k <;> decide

/-- User and System mode, and no other, have no SPSR (R33, R56). -/
theorem Mode.spsrIndex_eq_none_iff (m : Mode) : m.spsrIndex = none ↔ m = .usr ∨ m = .sys := by
  cases m <;> decide

-- Reading after writing

/-- An SPSR is what lies at the mode's index. -/
theorem State.spsrOf_eq_map (s : State) (m : Mode) : s.spsrOf m = m.spsrIndex.map (fun n => s.spsr[n]) := by
  unfold State.spsrOf
  split <;> simp [*]

/-- A mode without an SPSR reads none (R33). -/
theorem State.spsrOf_eq_none_iff (s : State) (m : Mode) : s.spsrOf m = none ↔ m = .usr ∨ m = .sys := by
  rw [State.spsrOf_eq_map, Option.map_eq_none_iff, Mode.spsrIndex_eq_none_iff]

/-- Writing the SPSR of a mode that has one. -/
theorem State.setSpsr_of_index {m : Mode} {n : Fin 5} (h : m.spsrIndex = some n) (s : State) (p : Psr) :
    s.setSpsr m p = { s with spsr := s.spsr.set n p } := by
  unfold State.setSpsr
  rw [h]

/-- Writing the SPSR of a mode that has none changes nothing. -/
theorem State.setSpsr_of_none {m : Mode} (h : m.spsrIndex = none) (s : State) (p : Psr) : s.setSpsr m p = s := by
  unfold State.setSpsr
  rw [h]

/-- A register of a mode, read after a write to a register of a mode (R33). -/
theorem State.regOf_setRegOf {i j : Reg} (hi : i ≠ 15) (hj : j ≠ 15) (s : State) (m k : Mode) (v : Word) :
    (s.setRegOf m i v).regOf k j = if i = j ∧ bankOf m i = bankOf k j then v else s.regOf k j := by
  simp only [State.setRegOf_reg hi, State.regOf, Fin.getElem_fin, Vector.getElem_set, ← Fin.ext_iff,
    physReg_eq_iff hi hj]

/-- The SPSR of a mode, read after a write to the SPSR of a mode (R33, R56). -/
theorem State.spsrOf_setSpsr (s : State) (m k : Mode) (p : Psr) :
    (s.setSpsr m p).spsrOf k = if m = k ∧ m ≠ .usr ∧ m ≠ .sys then some p else s.spsrOf k := by
  have hasSpsr := m.spsrIndex_eq_none_iff
  rcases hm : m.spsrIndex with _ | n
  · have noSpsr : m = .usr ∨ m = .sys := hasSpsr.mp hm
    rw [State.setSpsr_of_none hm, if_neg (by tauto)]
  · have own : m ≠ .usr ∧ m ≠ .sys := by simpa [hm] using hasSpsr
    rw [State.setSpsr_of_index hm, State.spsrOf_eq_map, State.spsrOf_eq_map]
    by_cases hk : m = k
    · subst hk
      simp [hm, own]
    · rcases h : k.spsrIndex with _ | l
      · simp [hk]
      · have apart : n ≠ l := fun e => hk ((Mode.spsrIndex_eq_some_iff hm).mp (e ▸ h))
        simp [hk, Vector.getElem_set, Fin.val_inj, apart]

/-- Settles O9: a write of a register or an SPSR shows in another mode where both name one place; the current mode's
registers and the User column are those of `regOf` by definition. -/
theorem bankedRegisters : Obligations.BankedRegisters :=
  ⟨fun s m k _ _ v hi hj => State.regOf_setRegOf hi hj s m k v, State.setRegOf_pcReg,
    fun _ _ _ _ => ⟨⟨rfl, rfl⟩, rfl, rfl⟩, State.spsrOf_setSpsr, State.spsrOf_eq_none_iff⟩

end Sys2Proof.Machine

/-!
PROOFS. Conditions of ARM instructions (spec/40_arm_dataproc.md rules R200, R201): every ARM instruction is an effect
behind the gate of its condition.
-/

namespace Sys2Proof.Machine

/-- Every ARM instruction is some effect behind the gate of its condition (R200), a coprocessor instruction in both
values of CP_MODE. -/
theorem exec_eq_armGate {i : Instr} {c : Cond} (hc : condOf i = some c) (s : State) :
    ∃ sb regs body, exec i s = armGate c sb regs s body := by
  cases i with
  | ldc | stc | cdp | mcr | mrc =>
    cases hc
    show ∃ sb regs body, coprocessor c s = armGate c sb regs s body
    unfold coprocessor
    split <;> exact ⟨_, _, _, rfl⟩
  | _ => cases hc <;> exact ⟨_, _, _, rfl⟩

/-- An instruction of the reserved condition is the case `cond-nv`, and otherwise only advances the pc (R201). -/
theorem armGate_nv (sb : Bool) (regs : List Reg) (s : State) (body : State → Outcome) :
    armGate .nv sb regs s body = unpredIf s true .condNv (.next s.begun.nextArm) := rfl

/-- Settles O11: the table is that of `condPassed`; an instruction whose condition fails, or is the reserved one, is
decided by the gate that every ARM instruction has. -/
theorem conditionsOfInstructions : Obligations.ConditionsOfInstructions := by
  refine ⟨fun p => ?table, fun i c s hi hn hc => ?fails, fun i s hi => ?reserved⟩
  case table => simp [Cond.ofBits, condPassed]
  case fails =>
    obtain ⟨sb, regs, body, gate⟩ := exec_eq_armGate hi s
    exact gate.trans (armGate_skip hn hc sb regs body)
  case reserved =>
    obtain ⟨sb, regs, body, gate⟩ := exec_eq_armGate hi s
    exact gate.trans (armGate_nv sb regs s body)

end Sys2Proof.Machine

/-!
PROOFS. The shifter operand (spec/40_arm_dataproc.md rules R203 to R211): what the shifts of a word are as numbers and
bit by bit, and a shift by an immediate that is not 0 as the shift by a register that holds it.
-/

namespace Sys2Proof.Machine

-- Shifts of a word

/-- An arithmetic shift right divides the signed number, rounding down (R12, R206). -/
theorem toInt_asrWord (m : Word) (k : Nat) : (asrWord m k).toInt = m.toInt / 2 ^ k := by
  rw [asrWord, BitVec.toInt_sshiftRight, Int.shiftRight_eq_div_pow]
  norm_cast

/-- An arithmetic shift right by 32 leaves the sign in every bit (R12, R206). -/
theorem asrWord_32 (m : Word) : asrWord m 32 = if m.getLsbD 31 then 0xFFFFFFFF else 0 := by
  have sign : m.msb = m.getLsbD 31 := BitVec.msb_eq_getLsbD_last m
  unfold asrWord
  split
  · next h =>
    rw [BitVec.sshiftRight_eq_of_msb_true (sign.trans h), BitVec.ushiftRight_eq_zero (by decide)]
    rfl
  · next h =>
    rw [BitVec.sshiftRight_eq_of_msb_false (sign.trans (by simpa using h)), BitVec.ushiftRight_eq_zero (by decide)]
    rfl

/-- A rotation right takes bit k from bit k + r, modulo 32 (R12, R207). -/
theorem getLsbD_rotateRight_word (m : Word) (r : Nat) {k : Nat} (hk : k < 32) :
    (m.rotateRight r).getLsbD k = m.getLsbD ((k + r) % 32) := by
  rw [BitVec.getLsbD_rotateRight]
  by_cases low : k < 32 - r % 32
  · have source : (k + r) % 32 = r % 32 + k := by omega
    simp [low, source]
  · have source : (k + r) % 32 = k - (32 - r % 32) := by omega
    simp [low, hk, source]

-- Shifts by a register

section
variable {n : BitVec 8} (m : Word) (c : Bool)

/-- LSL, LSR and ASR by 1 to 31 (R208 to R210). -/
theorem shiftByReg_inRange (h1 : 1 ≤ n.toNat) (h31 : n.toNat ≤ 31) :
    shiftByReg .lsl m n c = ⟨m <<< n.toNat, m.getLsbD (32 - n.toNat)⟩ ∧
    shiftByReg .lsr m n c = ⟨m >>> n.toNat, m.getLsbD (n.toNat - 1)⟩ ∧
    shiftByReg .asr m n c = ⟨asrWord m n.toNat, m.getLsbD (n.toNat - 1)⟩ := by
  have nonzero : n.toNat ≠ 0 := by omega
  have below : n.toNat < 32 := by omega
  simp only [shiftByReg, nonzero, below, if_true, if_false, and_self]

/-- LSL and LSR by more than 32 (R208, R209). -/
theorem shiftByReg_above (h : 32 < n.toNat) :
    shiftByReg .lsl m n c = ⟨0, false⟩ ∧ shiftByReg .lsr m n c = ⟨0, false⟩ := by
  have nonzero : n.toNat ≠ 0 := by omega
  have above : ¬ n.toNat < 32 := by omega
  have other : n.toNat ≠ 32 := by omega
  simp only [shiftByReg, nonzero, above, other, if_false, and_self]

/-- ASR by 32 and more is ASR by 32 (R210). -/
theorem shiftByReg_asr_above (h : 32 ≤ n.toNat) : shiftByReg .asr m n c = ⟨asrWord m 32, m.getLsbD 31⟩ := by
  have nonzero : n.toNat ≠ 0 := by omega
  have above : ¬ n.toNat < 32 := by omega
  simp only [shiftByReg, nonzero, above, if_false]

/-- ROR by a multiple of 32 leaves the word (R211). -/
theorem shiftByReg_ror_multiple (h0 : n ≠ 0) (h : n.toNat % 32 = 0) :
    shiftByReg .ror m n c = ⟨m, m.getLsbD 31⟩ := by
  have nonzero : n.toNat ≠ 0 := fun e => h0 (BitVec.eq_of_toNat_eq e)
  simp only [shiftByReg, nonzero, h, if_true, if_false]

/-- ROR by an amount that is no multiple of 32 (R211). -/
theorem shiftByReg_ror (h : n.toNat % 32 ≠ 0) :
    shiftByReg .ror m n c = ⟨m.rotateRight (n.toNat % 32), m.getLsbD (n.toNat % 32 - 1)⟩ := by
  have nonzero : n.toNat ≠ 0 := by omega
  simp only [shiftByReg, nonzero, h, if_false]

/-- LSL, LSR and ASR by 1 to 31 as numbers, with the last bit shifted out as carry (R208 to R210). -/
theorem shiftByReg_numbers (h1 : 1 ≤ n.toNat) (h31 : n.toNat ≤ 31) :
    (shiftByReg .lsl m n c).value.toNat = m.toNat * 2 ^ n.toNat % 2 ^ 32 ∧
    (shiftByReg .lsl m n c).carry = m.getLsbD (32 - n.toNat) ∧
    (shiftByReg .lsr m n c).value.toNat = m.toNat / 2 ^ n.toNat ∧
    (shiftByReg .lsr m n c).carry = m.getLsbD (n.toNat - 1) ∧
    (shiftByReg .asr m n c).value.toInt = m.toInt / 2 ^ n.toNat ∧
    (shiftByReg .asr m n c).carry = m.getLsbD (n.toNat - 1) := by
  obtain ⟨lsl, lsr, asr⟩ := shiftByReg_inRange m c h1 h31
  rw [lsl, lsr, asr]
  exact ⟨by rw [BitVec.toNat_shiftLeft, Nat.shiftLeft_eq], rfl,
    by rw [BitVec.toNat_ushiftRight, Nat.shiftRight_eq_div_pow], rfl, toInt_asrWord m _, rfl⟩

/-- ROR bit by bit, with the last bit turned out as carry (R211). -/
theorem shiftByReg_ror_bits (h : n.toNat % 32 ≠ 0) :
    (∀ k < 32, (shiftByReg .ror m n c).value.getLsbD k = m.getLsbD ((k + n.toNat) % 32)) ∧
    (shiftByReg .ror m n c).carry = m.getLsbD (n.toNat % 32 - 1) := by
  rw [shiftByReg_ror m c h]
  refine ⟨fun k hk => ?_, rfl⟩
  rw [getLsbD_rotateRight_word m _ hk, Nat.add_mod_mod]

end

/-- Settles O15: each shift by an amount in one of its ranges is one shift of a word. -/
theorem shifterByRegister : Obligations.ShifterByRegister := by
  refine ⟨fun _ _ _ => rfl, fun m _ c h1 h31 => shiftByReg_numbers m c h1 h31, fun _ _ => ⟨rfl, rfl⟩,
    fun m _ c h => shiftByReg_above m c h, fun m n c h => ?_, fun m _ c h0 h => shiftByReg_ror_multiple m c h0 h,
    fun m _ c h => shiftByReg_ror_bits m c h⟩
  rw [shiftByReg_asr_above m c h, asrWord_32]

-- The immediate operand and shifts by an immediate

/-- The immediate operand bit by bit: the eight bits turned right by twice the rotation field (R203). -/
theorem getLsbD_immShifted (rot : BitVec 4) (imm8 : BitVec 8) (c : Bool) {k : Nat} (hk : k < 32) :
    (immShifted rot imm8 c).value.getLsbD k = imm8.getLsbD ((k + 2 * rot.toNat) % 32) := by
  have source : (k + 2 * rot.toNat) % 32 < 32 := Nat.mod_lt _ (by decide)
  simp [immShifted, getLsbD_rotateRight_word _ _ hk, source]

/-- A shift by an immediate that is not 0 is the shift by a register that holds it. -/
theorem shiftByImm_eq_shiftByReg {amt : BitVec 5} {n : BitVec 8} (h0 : amt ≠ 0) (hn : n.toNat = amt.toNat) (sh : Shift)
    (m : Word) (c : Bool) : shiftByImm sh m amt c = shiftByReg sh m n c := by
  have nonzero : amt.toNat ≠ 0 := fun e => h0 (BitVec.eq_of_toNat_eq e)
  have below : amt.toNat < 32 := amt.isLt
  cases sh <;> simp only [shiftByImm, shiftByReg, hn, nonzero, below, Nat.mod_eq_of_lt, if_true, if_false]

/-- ROR by the immediate 0 is RRX: a shift right by one through the carry (R207). -/
theorem shiftByImm_ror_zero_bits (m : Word) (c : Bool) :
    (∀ k < 31, (shiftByImm .ror m 0 c).value.getLsbD k = m.getLsbD (k + 1)) ∧
    (shiftByImm .ror m 0 c).value.getLsbD 31 = c := by
  have rrx : (shiftByImm .ror m 0 c).value = (BitVec.ofBool c).zeroExtend 32 <<< 31 ||| m >>> 1 := rfl
  rw [rrx]
  constructor
  · intro k hk
    simp [hk, Nat.add_comm]
  · simp

/-- Settles O14: an amount that is not 0 shifts as a register that holds it does, and the amount 0 is a shift by 32 or
RRX. -/
theorem shifterByImmediate : Obligations.ShifterByImmediate := by
  refine ⟨fun rot imm8 c => ⟨fun k hk => getLsbD_immShifted rot imm8 c hk, rfl⟩, fun m c => ?zero,
    fun m amt c h0 => ?nonzero⟩
  case zero =>
    obtain ⟨bits, top⟩ := shiftByImm_ror_zero_bits m c
    exact ⟨rfl, rfl, congrArg (Shifted.mk · _) (asrWord_32 m), bits, top, rfl⟩
  case nonzero =>
    obtain ⟨n, hn⟩ : ∃ n : BitVec 8, n.toNat = amt.toNat := ⟨amt.zeroExtend 8, BitVec.toNat_setWidth_of_le (by decide)⟩
    have range : 1 ≤ n.toNat ∧ n.toNat ≤ 31 := by
      have : amt.toNat ≠ 0 := fun e => h0 (BitVec.eq_of_toNat_eq e)
      omega
    have modulo : n.toNat % 32 = n.toNat := Nat.mod_eq_of_lt (by omega)
    obtain ⟨bits, carry⟩ := shiftByReg_ror_bits m c (n := n) (by omega)
    obtain ⟨lsl, lslC, lsr, lsrC, asr, asrC⟩ := shiftByReg_numbers m c range.1 range.2
    simp only [shiftByImm_eq_shiftByReg h0 hn, ← hn]
    exact ⟨lsl, lslC, lsr, lsrC, asr, asrC, bits, modulo ▸ carry⟩

end Sys2Proof.Machine

/-!
PROOFS. The multiplies (spec/41_arm_multiply_psr_swap.md rules R260 to R265): where an ARM instruction runs, its effect
behind the gate is what it does; the effect is a register check, a product of exact integers, and the flags.
-/

namespace Sys2Proof.Machine

-- An ARM instruction that runs

/-- A well-formed instruction holds the required values in its should-be fields (R21). -/
theorem shouldBeHeld_of_wellFormed {i : Instr} (h : i.WellFormed) : shouldBeHeld i = true :=
  Bool.and_elim_right ((wf_eq_proper_and_held i).symm.trans h)

/-- Where an ARM instruction runs, its gate lets the effect happen (R200, R20, R21, R611). -/
theorem Runs.armGate_eq {i : Instr} {c : Cond} {s : State} (h : Runs i s) (hc : condOf i = some c) (regs : List Reg)
    (body : State → Outcome) : armGate c (shouldBeHeld i) regs s body = body s.begun :=
  armGate_run (h.passes c hc) (h.free.imp_right fun ⟨wf, mark⟩ => ⟨shouldBeHeld_of_wellFormed wf, mark⟩) regs body

-- Register checks

/-- A case that holds stops every machine (R20). -/
theorem stopIf_pos {w : Bool} (h : w = true) (k : Unpredictable) (e : Outcome) :
    stopIf w k e = .fault (.unpredictable k) := by simp [stopIf, h]

-- MUL and MLA

/-- The effect of MUL and MLA, `regs` the registers they name and `v` the value of Rd (R260, R261). -/
def mulEffect (sf : Bool) (regs : List Reg) (rd rm : Reg) (v : Word) (s : State) : Outcome :=
  stopIf (regs.contains 15) .mulPc <| stopIf (rd == rm) .mulRdRm <| mulFinish sf rd v s

/-- The state after MUL and MLA: Rd, and with S = 1 the flags, of which C is a free bit (R260, R261, D22). -/
def mulAfter (sf : Bool) (rd : Reg) (v : Word) (s : State) : State :=
  { after s (regsWith s rd v) (if sf then flagsWith s v (Config.freeBit s.draws) s.cpsr.v else s.cpsr) (s.pc + 4)
    with draws := if sf then s.draws + 1 else s.draws }

theorem mulFinish_eq {rd : Reg} (h : rd ≠ 15) (sf : Bool) (v : Word) (s : State) :
    mulFinish sf rd v s.begun = .next (mulAfter sf rd v s) := by
  unfold mulFinish
  rw [State.setX_reg h]
  cases sf <;> rfl

/-- The three ways MUL and MLA end: the product, a register that is R15, and Rd = Rm (R260, R261). -/
theorem mulEffect_cases {regs : List Reg} {rd : Reg} (hd : rd ∈ regs) (sf : Bool) (rm : Reg) (v : Word) (s : State) :
    (15 ∉ regs → rd ≠ rm → mulEffect sf regs rd rm v s.begun = .next (mulAfter sf rd v s)) ∧
    (15 ∈ regs → mulEffect sf regs rd rm v s.begun = .fault (.unpredictable .mulPc)) ∧
    (15 ∉ regs → rd = rm → mulEffect sf regs rd rm v s.begun = .fault (.unpredictable .mulRdRm)) := by
  unfold mulEffect
  refine ⟨fun noPc apart => ?_, fun pc => stopIf_pos (by simpa using pc) _ _, fun noPc same => ?_⟩
  · have rdLow : rd ≠ 15 := fun e => noPc (e ▸ hd)
    rw [stopIf_neg (by simpa using noPc), stopIf_neg (by simpa using apart), mulFinish_eq rdLow]
  · rw [stopIf_neg (by simpa using noPc), stopIf_pos (by simpa using same)]

/-- The product of two words is that of the exact integers, modulo 2^32 (R260). -/
theorem mul_eq_ofNat (a b : Word) : a * b = BitVec.ofNat 32 (a.toNat * b.toNat) := by
  simp [BitVec.ofNat_mul]

/-- The product of two words with an addend is that of the exact integers, modulo 2^32 (R261). -/
theorem mul_add_eq_ofNat (a b d : Word) : a * b + d = BitVec.ofNat 32 (a.toNat * b.toNat + d.toNat) := by
  simp [BitVec.ofNat_add, BitVec.ofNat_mul]

theorem exec_mul {c : Cond} {sf : Bool} {rd : Reg} {sbz : BitVec 4} {rs rm : Reg} {s : State}
    (h : Runs (.mul c sf rd sbz rs rm) s) :
    exec (.mul c sf rd sbz rs rm) s =
      mulEffect sf [rd, rs, rm] rd rm (BitVec.ofNat 32 ((s.x rm).toNat * (s.x rs).toNat)) s.begun := by
  rw [← mul_eq_ofNat]
  exact h.armGate_eq rfl _ _

theorem exec_mla {c : Cond} {sf : Bool} {rd rn rs rm : Reg} {s : State} (h : Runs (.mla c sf rd rn rs rm) s) :
    exec (.mla c sf rd rn rs rm) s =
      mulEffect sf [rd, rn, rs, rm] rd rm
        (BitVec.ofNat 32 ((s.x rm).toNat * (s.x rs).toNat + (s.x rn).toNat)) s.begun := by
  rw [← mul_add_eq_ofNat]
  exact h.armGate_eq rfl _ _

-- The long multiplies

/-- The long multiply that the bits for signed and for accumulate select (R262 to R265). -/
def mullInstr (signed acc : Bool) (c : Cond) (sf : Bool) (rdHi rdLo rs rm : Reg) : Instr :=
  match signed, acc with
  | false, false => .umull c sf rdHi rdLo rs rm
  | false, true => .umlal c sf rdHi rdLo rs rm
  | true, false => .smull c sf rdHi rdLo rs rm
  | true, true => .smlal c sf rdHi rdLo rs rm

/-- The state after a long multiply: RdHi, then RdLo, and with S = 1 the flags, of which C and V are free bits (R262,
D22). -/
def mullAfter (sf : Bool) (rdHi rdLo : Reg) (p : BitVec 64) (s : State) : State :=
  { after s ((regsWith s rdHi (p.extractLsb' 32 32)).set (physReg s.cpsr.mode rdLo) (p.extractLsb' 0 32))
      (if sf then { s.cpsr with n := p.getLsbD 63, z := p == 0, c := Config.freeBit s.draws,
                                v := Config.freeBit (s.draws + 1) }
        else s.cpsr) (s.pc + 4)
    with draws := if sf then s.draws + 2 else s.draws }

theorem mullFinish_eq {rdHi rdLo : Reg} (hi : rdHi ≠ 15) (lo : rdLo ≠ 15) (sf : Bool) (p : BitVec 64) (s : State) :
    mullFinish sf rdHi rdLo p s.begun = .next (mullAfter sf rdHi rdLo p s) := by
  unfold mullFinish
  rw [State.setX_reg hi, State.setX_reg lo]
  cases sf <;> rfl

/-- The check of a long multiply is that of R262. -/
theorem mullRegsCase_iff (rdHi rdLo rs rm : Reg) : mullRegsCase rdHi rdLo rs rm = true ↔
    15 ∈ [rdHi, rdLo, rs, rm] ∨ rdHi = rdLo ∨ rdHi = rm ∨ rdLo = rm := by
  simp only [mullRegsCase, Bool.or_eq_true, List.contains_iff_mem, beq_iff_eq, or_assoc]

/-- The product of the extended operands is that of the exact integers, modulo 2^64 (R262, R264). -/
theorem longProduct_eq (signed acc : Bool) (s : State) (rdHi rdLo rs rm : Reg) :
    longProduct signed acc s rdHi rdLo rs rm =
      (if signed then (s.x rm).signExtend 64 else (s.x rm).zeroExtend 64) *
        (if signed then (s.x rs).signExtend 64 else (s.x rs).zeroExtend 64) +
      (if acc then s.x rdHi ++ s.x rdLo else 0) := by
  unfold longProduct
  cases signed with
  | false => simp [BitVec.ofNat_mul]
  | true => simp [BitVec.ofInt_mul, BitVec.signExtend]

theorem exec_mull {signed acc : Bool} {c : Cond} {sf : Bool} {rdHi rdLo rs rm : Reg} {s : State}
    (h : Runs (mullInstr signed acc c sf rdHi rdLo rs rm) s) :
    exec (mullInstr signed acc c sf rdHi rdLo rs rm) s =
      stopIf (mullRegsCase rdHi rdLo rs rm) .mullRegs
        (mullFinish sf rdHi rdLo (longProduct signed acc s rdHi rdLo rs rm) s.begun) := by
  rw [longProduct_eq]
  cases signed <;> cases acc <;> exact h.armGate_eq rfl _ _

/-- Settles O18: each multiply that runs is a register check and then the end that its product gives. -/
theorem multiplyResults : Obligations.MultiplyResults := by
  intro c sf s
  refine ⟨fun rd sbz rs rm h => ?mul, fun rd rn rs rm h => ?mla, fun signed acc rdHi rdLo rs rm => ?long⟩
  case mul =>
    rw [exec_mul h]
    exact mulEffect_cases List.mem_cons_self sf rm _ s
  case mla =>
    rw [exec_mla h]
    exact mulEffect_cases List.mem_cons_self sf rm _ s
  case long =>
    intro i p (h : Runs (mullInstr signed acc c sf rdHi rdLo rs rm) s)
    have run : exec i s = stopIf (mullRegsCase rdHi rdLo rs rm) .mullRegs (mullFinish sf rdHi rdLo p s.begun) :=
      exec_mull h
    rw [run]
    refine ⟨fun noPc hiLo hiRm loRm => ?_, fun bad => stopIf_pos ((mullRegsCase_iff ..).mpr bad) _ _⟩
    have pass : mullRegsCase rdHi rdLo rs rm = false := by
      rw [Bool.eq_false_iff, Ne, mullRegsCase_iff]
      tauto
    rw [stopIf_neg pass]
    exact mullFinish_eq (fun e => noPc (by simp [e])) (fun e => noPc (by simp [e])) sf p s

end Sys2Proof.Machine

/-!
PROOFS. SWP and SWPB (spec/41_arm_multiply_psr_swap.md rules R290, R291): a read, a store and a register write behind
one register check, in the width of each.
-/

namespace Sys2Proof.Machine

/-- A store that is not stopped is the bus write (R14, R541, R612). -/
theorem cpuWrite_of_storeRuns {a : Word} {w : Width} {v : Word} {s : State} (h : StoreRuns a w v s) :
    cpuWrite a w v s = .ok (busWrite a w v s) := by
  obtain ⟨clear, noCase⟩ := h
  have noHazard : (s.strict && hitsPrefetch a w s) = false := by
    rcases clear with e | e <;> simp [e]
  simp [cpuWrite, noHazard, noCase]

/-- The end of SWP and SWPB, `v` to be stored and `temp` read (R290, R291). -/
def swapFinish (a : Word) (w : Width) (v : Word) (rd : Reg) (temp : Word) (s : State) : Outcome :=
  orFault (cpuWrite a w v s) fun s2 => .next (s2.setX rd temp).nextArm

/-- A store that is not stopped, and then Rd, after a read that changes at most the count of free values. -/
theorem swapFinish_eq {a : Word} {w : Width} {v : Word} {rd : Reg} {s s1 : State} (hd : rd ≠ 15)
    (read : ∃ d, s1 = { s.begun with draws := d }) (store : StoreRuns a w v s1) (temp : Word) :
    swapFinish a w v rd temp s1 = .next { busWrite a w v s1 with gpr := regsWith s rd temp, pc := s.pc + 4 } := by
  obtain ⟨d, rfl⟩ := read
  unfold swapFinish
  rw [cpuWrite_of_storeRuns store]
  simp [orFault, State.setX_reg hd, State.nextArm, State.setPc, regsWith]

/-- The three ways SWP and SWPB end: the swap, a register that is R15, and Rn equal to another (R290, R291). -/
theorem swap_cases {rn rd rm : Reg} {a : Word} {w : Width} {v temp : Word} {s s1 : State}
    (read : ∃ d, s1 = { s.begun with draws := d }) :
    (15 ∉ [rd, rm, rn] → rn ≠ rm → rn ≠ rd → StoreRuns a w v s1 →
      swapStops rn rd rm (swapFinish a w v rd temp s1) =
        .next { busWrite a w v s1 with gpr := regsWith s rd temp, pc := s.pc + 4 }) ∧
    (15 ∈ [rd, rm, rn] → swapStops rn rd rm (swapFinish a w v rd temp s1) = .fault (.unpredictable .swpPc)) ∧
    (15 ∉ [rd, rm, rn] → rn = rm ∨ rn = rd →
      swapStops rn rd rm (swapFinish a w v rd temp s1) = .fault (.unpredictable .swpRnOverlap)) := by
  unfold swapStops
  refine ⟨fun noPc apartRm apartRd store => ?_, fun pc => stopIf_pos (by simpa using pc) _ _, fun noPc same => ?_⟩
  · have rdLow : rd ≠ 15 := fun e => noPc (e ▸ List.mem_cons_self)
    rw [stopIf_neg (by simpa using noPc), stopIf_neg (by simp [apartRm, apartRd]), swapFinish_eq rdLow read store]
  · rw [stopIf_neg (by simpa using noPc), stopIf_pos (by simpa using same)]

theorem exec_swp {c : Cond} {rn rd : Reg} {sbz : BitVec 4} {rm : Reg} {s : State} (h : Runs (.swp c rn rd sbz rm) s) :
    exec (.swp c rn rd sbz rm) s = swapStops rn rd rm
      (swapFinish (align4 (s.x rn)) .word (s.x rm) rd (loadRotated (s.x rn) s.begun).1
        (loadRotated (s.x rn) s.begun).2) :=
  h.armGate_eq rfl _ _

theorem exec_swpb {c : Cond} {rn rd : Reg} {sbz : BitVec 4} {rm : Reg} {s : State} (h : Runs (.swpb c rn rd sbz rm) s) :
    exec (.swpb c rn rd sbz rm) s = swapStops rn rd rm
      (swapFinish (s.x rn) .byte (s.x rm) rd (cpuRead (s.x rn) .byte s.begun).1 (cpuRead (s.x rn) .byte s.begun).2) :=
  h.armGate_eq rfl _ _

/-- Settles O22: each swap that runs is its read and then, behind the register check, its store and its write of Rd. -/
theorem swapResults : Obligations.SwapResults := by
  intro c rn rd sbz rm s
  refine ⟨fun h => ?word, fun h => ?byte⟩
  case word =>
    rw [exec_swp h]
    exact swap_cases (loadRotated_state (s.x rn) s.begun)
  case byte =>
    rw [exec_swpb h]
    exact swap_cases (cpuRead_state (s.x rn) .byte s.begun)

end Sys2Proof.Machine

/-!
PROOFS. ARM branches and BX in both sets (spec/43_arm_branch_system.md rules R350 to R352, spec/44_thumb_alu.md rule
R433): a branch is its effect behind the gate, and the two exchanges share one effect.
-/

namespace Sys2Proof.Machine

-- The gate of an instruction that runs

/-- A case that holds stops a strict machine (R20). -/
theorem unpredIf_pos {s : State} (hs : s.strict = true) {w : Bool} (h : w = true) (k : Unpredictable) (e : Outcome) :
    unpredIf s w k e = .fault (.unpredictable k) := by simp [unpredIf, hs, h]

/-- Where an instruction runs, no User-bank transfer just before it stops it (R611). -/
theorem Runs.unmarked {i : Instr} {s : State} (h : Runs i s) : s.strict = false ∨ s.lastUsrBank = false :=
  h.free.imp_right And.right

/-- Where an instruction runs, its should-be fields do not stop it (R21). -/
theorem Runs.fieldsFree {i : Instr} {s : State} (h : Runs i s) (e : Outcome) :
    unpredIf s (!shouldBeHeld i) .sbzSbo e = e := by
  rcases h.free with lenient | ⟨wf, -⟩
  · exact unpredIf_lenient lenient _ _ _
  · exact unpredIf_neg (by simp [shouldBeHeld_of_wellFormed wf]) _ _

-- B and BL

/-- The branch offset is the signed field in words (R350). -/
theorem branchOffset_eq (off : BitVec 24) : branchOffset off = off.signExtend 32 * 4 := by
  unfold branchOffset
  exact BitVec.shiftLeft_eq_mul_twoPow _ 2

theorem exec_b {c : Cond} {off : BitVec 24} {s : State} (h : Runs (.b c off) s) :
    exec (.b c off) s = .next (after s s.gpr s.cpsr (s.pc + 8 + branchOffset off)) :=
  h.armGate_eq rfl _ _

theorem exec_bl {c : Cond} {off : BitVec 24} {s : State} (h : Runs (.bl c off) s) :
    exec (.bl c off) s = .next (after s (regsWith s 14 (s.pc + 4)) s.cpsr (s.pc + 8 + branchOffset off)) :=
  h.armGate_eq rfl _ _

/-- Settles O32: each branch that runs is its effect, the offset a multiple of four. -/
theorem branchResults : Obligations.BranchResults := by
  intro c off s
  rw [← branchOffset_eq]
  exact ⟨exec_b, exec_bl⟩

-- BX

/-- The two ways an exchange ends: the branch with T from bit 0, and the stop of a strict machine at an ARM target with
bit 1 set (R352, R433). -/
theorem branchExchange_cases (v : Word) (s : State) :
    (s.strict = false ∨ v.getLsbD 0 = true ∨ v.getLsbD 1 = false →
      branchExchange v s.begun =
        .next (after s s.gpr { s.cpsr with t := v.getLsbD 0 } (alignFor (v.getLsbD 0) v))) ∧
    (s.strict = true → v.getLsbD 0 = false → v.getLsbD 1 = true →
      branchExchange v s.begun = .fault (.unpredictable .bxArmUnaligned)) := by
  unfold branchExchange
  refine ⟨fun free => ?branch, fun strict arm bit1 => unpredIf_pos strict (by rw [arm, bit1]; rfl) _ _⟩
  rcases free with lenient | thumb | bit1
  · exact unpredIf_lenient lenient _ _ _
  · exact unpredIf_neg (by rw [thumb]; rfl) _ _
  · exact unpredIf_neg (by rw [bit1, Bool.and_false]) _ _

theorem exec_bx {c : Cond} {sbo : BitVec 12} {rm : Reg} {s : State} (h : Runs (.bx c sbo rm) s) :
    exec (.bx c sbo rm) s = branchExchange (s.armX rm) s.begun :=
  h.armGate_eq rfl _ _

theorem exec_tBx {sbzA : BitVec 1} {h2 : Bool} {rs : LowReg} {sbzB : BitVec 3} {s : State}
    (h : Runs (.tBx sbzA h2 rs sbzB) s) :
    exec (.tBx sbzA h2 rs sbzB) s = branchExchange (s.thumbX (high h2 rs)) s.begun :=
  (h.fieldsFree _).trans (thumbGate_run h.unmarked _ _)

/-- Settles O33: BX of each set that runs is the one exchange, with R15 read as its set reads it. -/
theorem branchExchangeResults : Obligations.BranchExchangeResults := by
  refine ⟨fun c sbo rm s h => ?arm, fun sbzA h2 rs sbzB s h => ?thumb⟩
  case arm =>
    rw [exec_bx h]
    exact branchExchange_cases (s.armX rm) s
  case thumb =>
    rw [exec_tBx h]
    exact branchExchange_cases (s.thumbX (high h2 rs)) s

end Sys2Proof.Machine

/-!
PROOFS. The exception instructions, the undefined words and the coprocessor stub (spec/43_arm_branch_system.md rules
R355, R360 to R366, spec/45_thumb_mem_branch.md rules R473, R477): behind its gate each is the entry of R508, with the
link of the next instruction, or only advances the pc.
-/

namespace Sys2Proof.Machine

-- Exceptions raised by an instruction

/-- The link of an exception that an ARM instruction raises is that of the next instruction (R502, R504, R509). -/
theorem raiseArm_begun {e : Exc} (h : e = .undefined ∨ e = .softwareInterrupt) (s : State) :
    raiseArm e s.begun = .next (takeExceptionWithLink e (s.pc + 4) s.begun) := by
  rcases h with rfl | rfl <;> rfl

/-- The link of an exception that a Thumb instruction raises is that of the next instruction (R502, R504, R509). -/
theorem raiseThumb_begun {e : Exc} (h : e = .undefined ∨ e = .softwareInterrupt) (s : State) :
    raiseThumb e s.begun = .next (takeExceptionWithLink e (s.pc + 2) s.begun) := by
  rcases h with rfl | rfl <;> rfl

theorem exec_swi {c : Cond} {comment : BitVec 24} {s : State} (h : Runs (.swi c comment) s) :
    exec (.swi c comment) s = .next (takeExceptionWithLink .softwareInterrupt (s.pc + 4) s.begun) :=
  (h.armGate_eq rfl _ _).trans (raiseArm_begun (.inr rfl) s)

theorem exec_tSwi {value8 : BitVec 8} {s : State} (h : Runs (.tSwi value8) s) :
    exec (.tSwi value8) s = .next (takeExceptionWithLink .softwareInterrupt (s.pc + 2) s.begun) :=
  (thumbGate_run h.unmarked _ _).trans (raiseThumb_begun (.inr rfl) s)

/-- An ARM word of the undefined space or of no row raises Undefined, once its condition passes (R366, R502). -/
theorem undefinedArm_run {c : Cond} {s : State} (hc : condPassed c s.cpsr = true)
    (free : s.strict = false ∨ s.lastUsrBank = false) :
    undefinedArm c s = .next (takeExceptionWithLink .undefined (s.pc + 4) s.begun) :=
  (armGate_run hc (free.imp_right (⟨rfl, ·⟩)) _ _).trans (raiseArm_begun (.inl rfl) s)

/-- A Thumb halfword of no row raises Undefined (R477). -/
theorem undefinedThumb_run {s : State} (free : s.strict = false ∨ s.lastUsrBank = false) :
    undefinedThumb s = .next (takeExceptionWithLink .undefined (s.pc + 2) s.begun) :=
  (thumbGate_run free _ _).trans (raiseThumb_begun (.inl rfl) s)

/-- Settles O34: each instruction is its exception behind its gate, and a word of no row is the one undefined word of
its set; its gate decides a condition that fails or is reserved. -/
theorem exceptionInstructions : Obligations.ExceptionInstructions := by
  refine ⟨fun _ _ _ => exec_swi, fun _ _ => exec_tSwi, fun c _ _ s h => ?und, fun w s free hc => ?noRow,
    fun w s hn hc => ?fails, fun w s hnv => ?reserved, fun _ _ free => undefinedThumb_run free⟩
  case und => exact undefinedArm_run (h.passes c rfl) h.unmarked
  case noRow => exact undefinedArm_run hc free
  case fails => exact armGate_skip hn hc _ _ _
  case reserved =>
    have word : undecoded (.arm w) s = undefinedArm .nv s := congrArg (undefinedArm · s) hnv
    exact word.trans (armGate_nv _ _ s _)

-- The coprocessor

/-- With CP_MODE = nop a coprocessor instruction only advances the pc (R360). -/
theorem coprocessor_nop {c : Cond} {s : State} (hcp : s.params.cp = .nop) (hc : condPassed c s.cpsr = true)
    (free : s.strict = false ∨ s.lastUsrBank = false) :
    coprocessor c s = .next (after s s.gpr s.cpsr (s.pc + 4)) := by
  unfold coprocessor
  rw [hcp]
  exact armGate_run hc (free.imp_right (⟨rfl, ·⟩)) _ _

/-- With CP_MODE = undefined a coprocessor instruction is an undefined word (R360). -/
theorem coprocessor_undefined {c : Cond} {s : State} (hcp : s.params.cp = .undefined) :
    coprocessor c s = undefinedArm c s := by
  unfold coprocessor
  rw [hcp]
  rfl

/-- Settles O35: the five instructions are one stub of their condition, which CP_MODE decides. -/
theorem coprocessorStub : Obligations.CoprocessorStub := by
  intro i s h shape
  have stub : ∃ c, condOf i = some c ∧ exec i s = coprocessor c s := by
    rcases shape with ⟨c, _, _, _, _, _, _, rfl⟩ | ⟨c, _, _, _, _, _, _, _, _, rfl | rfl⟩ |
      ⟨c, _, _, _, _, _, _, rfl | rfl⟩ <;> exact ⟨c, rfl, rfl⟩
  obtain ⟨c, hi, run⟩ := stub
  have passes : condPassed c s.cpsr = true := h.passes c hi
  rw [run]
  cases hcp : s.params.cp with
  | nop => exact coprocessor_nop hcp passes h.unmarked
  | undefined => exact (coprocessor_undefined hcp).trans (undefinedArm_run passes h.unmarked)

end Sys2Proof.Machine

/-!
PROOFS. Thumb shifts, arithmetic, logic, high registers and address generation (spec/44_thumb_alu.md rules R401 to R437,
BX apart): behind its gate each instruction is one of a few ends, and its sum or difference is that of exact integers.
-/

namespace Sys2Proof.Machine

-- Sums and differences of exact integers

/-- An integer is outside the signed range of a word exactly where its word has another signed value (R17). -/
theorem outOfRange_eq_toInt_ne (e : Int) :
    (decide (e < -2 ^ 31) || decide (2 ^ 31 ≤ e)) = (e != (BitVec.ofInt 32 e).toInt) := by
  have fits : e = (BitVec.ofInt 32 e).toInt ↔ ¬(e < -2 ^ 31 ∨ 2 ^ 31 ≤ e) := by
    rw [BitVec.toInt_ofInt, Int.bmod_def]
    omega
  rw [Bool.eq_iff_iff, bne_iff_ne, Ne, fits, not_not, Bool.or_eq_true, decide_eq_true_eq, decide_eq_true_eq]

/-- `AddWithCarry` gives the sum with the C and V of exact integers (R17). -/
theorem addWithCarry_eq_sum (a b : Word) (c : Bool) :
    addWithCarry a b c = ⟨a + b + BitVec.ofNat 32 c.toNat, carryOf a b c, overflowOf a b c⟩ := by
  have sum : a + b + BitVec.ofNat 32 c.toNat = BitVec.ofInt 32 (a.toInt + b.toInt + c.toNat) := by
    simp only [BitVec.ofInt_add, BitVec.ofInt_toInt, BitVec.ofInt_natCast]
  have overflow : (addWithCarry a b c).overflow = overflowOf a b c := by
    rw [overflowOf, sum]
    exact outOfRange_eq_toInt_ne _
  exact congrArg (AluResult.mk _ _) overflow

/-- The signed value of the complement of a word. -/
theorem toInt_complement (b : Word) : (~~~b).toInt = -1 - b.toInt := by
  have := b.isLt
  rw [BitVec.toInt_not, BitVec.toInt_eq_toNat_bmod, Int.bmod_def, Int.bmod_def]
  omega

/-- `AddWithCarry` of a complement gives the difference with the NOT borrow and V of exact integers (R17, R215). -/
theorem addWithCarry_not_eq_difference (a b : Word) (c : Bool) :
    addWithCarry a (~~~b) c =
      ⟨a - b - BitVec.ofNat 32 (1 - c.toNat), noBorrow a b c, overflowSub a b c⟩ := by
  have value : a + ~~~b + BitVec.ofNat 32 c.toNat = a - b - BitVec.ofNat 32 (1 - c.toNat) := by
    have borrow : BitVec.ofNat 32 (1 - c.toNat) = 1#32 - BitVec.ofNat 32 c.toNat := by cases c <;> rfl
    rw [BitVec.not_eq_neg_add, borrow]
    ring
  have carry : carryOf a (~~~b) c = noBorrow a b c := by
    have := b.isLt
    have := c.toNat_le
    unfold carryOf noBorrow
    rw [decide_eq_decide, BitVec.toNat_not]
    omega
  have overflow : overflowOf a (~~~b) c = overflowSub a b c := by
    have exact : a.toInt + (-1 - b.toInt) + (c.toNat : Int) = a.toInt - b.toInt - (1 - (c.toNat : Int)) := by ring
    unfold overflowOf overflowSub
    rw [value, toInt_complement, exact]
  rw [addWithCarry_eq_sum, value, carry, overflow]

-- The ends of an instruction, after the step has begun

section
variable (rd : LowReg) (s : State)

theorem thumbArith_begun (r : AluResult) :
    thumbArith (low rd) r s.begun = .next (thumbAfter s rd r.value (flagsWith s r.value r.carry r.overflow)) := by
  unfold thumbArith
  rw [State.setX_reg (low_ne rd)]
  rfl

/-- The end of an addition: Rd and NZCV of the exact sum (R400, R17). -/
theorem thumbArith_sum (a b : Word) (c : Bool) :
    thumbArith (low rd) (addWithCarry a b c) s.begun =
      .next (thumbAfter s rd (a + b + BitVec.ofNat 32 c.toNat)
        (flagsWith s (a + b + BitVec.ofNat 32 c.toNat) (carryOf a b c) (overflowOf a b c))) := by
  rw [thumbArith_begun, addWithCarry_eq_sum]

/-- The end of a subtraction: Rd and NZCV of the exact difference (R400, R215). -/
theorem thumbArith_difference (a b : Word) (c : Bool) :
    thumbArith (low rd) (addWithCarry a (~~~b) c) s.begun =
      .next (thumbAfter s rd (a - b - BitVec.ofNat 32 (1 - c.toNat))
        (flagsWith s (a - b - BitVec.ofNat 32 (1 - c.toNat)) (noBorrow a b c) (overflowSub a b c))) := by
  rw [thumbArith_begun, addWithCarry_not_eq_difference]

theorem thumbShift_begun (r : Shifted) :
    thumbShift (low rd) r s.begun = .next (thumbAfter s rd r.value (flagsWith s r.value r.carry s.cpsr.v)) := by
  unfold thumbShift
  rw [State.setX_reg (low_ne rd)]
  rfl

theorem thumbLogic_begun (v : Word) :
    thumbLogic (low rd) v s.begun = .next (thumbAfter s rd v (flagsWith s v s.cpsr.c s.cpsr.v)) := by
  unfold thumbLogic
  rw [State.setX_reg (low_ne rd)]
  rfl

/-- The end of MUL: Rd, N and Z, and C a free bit (R425, D22). -/
theorem thumbMul_begun (v : Word) :
    ((s.begun.setX (low rd) v).flagsMul v).nextThumb =
      { thumbAfter s rd v (flagsWith s v (Config.freeBit s.draws) s.cpsr.v) with draws := s.draws + 1 } := by
  rw [State.setX_reg (low_ne rd)]
  rfl

theorem thumbWrite_begun {d : Reg} (hd : d ≠ 15) (v : Word) :
    thumbWrite d v s.begun = .next (after s (regsWith s d v) s.cpsr (s.pc + 2)) := by
  unfold thumbWrite
  rw [State.setX_reg hd]
  rfl

/-- A write of any register but R15 is one of that register alone (R430, R432). -/
theorem thumbWriteAny_reg {d : Reg} (hd : d ≠ 15) (v : Word) :
    thumbWriteAny d v s.begun = .next (after s (regsWith s d v) s.cpsr (s.pc + 2)) :=
  (if_neg hd).trans (thumbWrite_begun s hd v)

/-- A write of R15 is a branch that stays in Thumb state (R430, R432). -/
theorem thumbWriteAny_pc {d : Reg} (hd : d = 15) (v : Word) :
    thumbWriteAny d v s.begun = .next (after s s.gpr s.cpsr (align2 v)) := if_pos hd

/-- The end of a compare: NZCV of the exact difference (R400, R215). -/
theorem thumbCompare_difference (a b : Word) :
    thumbCompare (addWithCarry a (~~~b) true) s.begun =
      .next (after s s.gpr (flagsWith s (a - b) (noBorrow a b true) (overflowSub a b true)) (s.pc + 2)) := by
  have noBorrowIn : a - b - BitVec.ofNat 32 (1 - true.toNat) = a - b := BitVec.sub_zero _
  rw [addWithCarry_not_eq_difference, noBorrowIn]
  rfl

/-- The end of a compare with the negative: NZCV of the exact sum (R400, R17). -/
theorem thumbCompare_sum (a b : Word) :
    thumbCompare (addWithCarry a b false) s.begun =
      .next (after s s.gpr (flagsWith s (a + b) (carryOf a b false) (overflowOf a b false)) (s.pc + 2)) := by
  have noCarryIn : a + b + BitVec.ofNat 32 false.toNat = a + b := BitVec.add_zero _
  rw [addWithCarry_eq_sum, noCarryIn]
  rfl

end

-- Scaled immediates

theorem scaled_zero {n : Nat} (imm : BitVec n) : scaled imm 0 = imm.zeroExtend 32 := BitVec.shiftLeft_zero _

theorem scaled_two {n : Nat} (imm : BitVec n) : scaled imm 2 = imm.zeroExtend 32 * 4 :=
  BitVec.shiftLeft_eq_mul_twoPow _ 2

-- Shifts, moves, logical instructions and MUL

/-- An instruction of format T4 runs its effect, its registers being low (R400). -/
theorem thumbT4_run (rs rd : LowReg) (s : State) (body : Word → Word → State → Outcome) :
    thumbT4 rs rd s body = body (s.x (low rd)) (s.x (low rs)) s.begun := thumbGate_low [rs, rd] s _

theorem exec_tTst (rs rd : LowReg) (s : State) :
    exec (.tTst rs rd) s = .next (s.begun.flagsNZ (s.x (low rd) &&& s.x (low rs))).nextThumb :=
  thumbT4_run rs rd s fun d m s => .next (s.flagsNZ (d &&& m)).nextThumb

/-- MUL is its product behind the case Rd = Rs (R425). -/
theorem exec_tMul (rs rd : LowReg) (s : State) :
    exec (.tMul rs rd) s = unpredIf s (rd == rs) .tMulRdRm
      (.next ((s.begun.setX (low rd) (s.x (low rs) * s.x (low rd))).flagsMul (s.x (low rs) * s.x (low rd))).nextThumb) :=
  thumbT4_run rs rd s fun d m s =>
    unpredIf s (rd == rs) .tMulRdRm (.next ((s.setX (low rd) (m * d)).flagsMul (m * d)).nextThumb)

/-- Settles O36: each instruction is its gate, which low registers pass, and then the end of a shift, of a logical
instruction or of MUL. -/
theorem thumbShiftsAndLogic : Obligations.ThumbShiftsAndLogic := by
  intro s rs rd d m shifted logic
  have shiftImm (sh : Shift) (off5 : BitVec 5) :
      thumbGate [low rs, low rd] s (fun s => thumbShift (low rd) (shiftByImm sh (s.x (low rs)) off5 s.cpsr.c) s) =
        shifted (shiftByImm sh m off5 s.cpsr.c) :=
    (thumbGate_low [rs, rd] s _).trans (thumbShift_begun rd s _)
  have shiftReg (sh : Shift) :
      thumbT4 rs rd s (fun d m s => thumbShift (low rd) (shiftByReg sh d (lowByte m) s.cpsr.c) s) =
        shifted (shiftByReg sh d (m.extractLsb' 0 8) s.cpsr.c) :=
    (thumbT4_run rs rd s _).trans (thumbShift_begun rd s _)
  have logical (f : Word → Word → Word) :
      thumbT4 rs rd s (fun d m => thumbLogic (low rd) (f d m)) = logic (f d m) :=
    (thumbT4_run rs rd s _).trans (thumbLogic_begun rd s _)
  refine ⟨shiftImm .lsl, shiftImm .lsr, shiftImm .asr, shiftReg .lsl, shiftReg .lsr, shiftReg .asr, shiftReg .ror,
    fun imm8 => ?movImm, logical (· &&& ·), logical (· ^^^ ·), logical (· ||| ·), logical (· &&& ~~~·),
    logical fun _ m => ~~~m, exec_tTst rs rd s, fun free => ?mul, fun strict => ?mulStop⟩
  case movImm =>
    rw [← scaled_zero]
    exact (thumbGate_low [rd] s _).trans (thumbLogic_begun rd s _)
  case mul =>
    rw [← mul_eq_ofNat, ← thumbMul_begun, exec_tMul]
    rcases free with lenient | apart
    · exact unpredIf_lenient lenient _ _ _
    · exact unpredIf_neg (beq_false_of_ne apart) _ _
  case mulStop =>
    rw [exec_tMul]
    exact unpredIf_pos strict (beq_self_eq_true rd) _ _

-- Additions, subtractions and compares

theorem exec_tCmn (rs rd : LowReg) (s : State) :
    exec (.tCmn rs rd) s = thumbCompare (addWithCarry (s.x (low rd)) (s.x (low rs)) false) s.begun :=
  thumbT4_run rs rd s fun d m => thumbCompare (addWithCarry d m false)

/-- Settles O37: each instruction is its gate, which low registers pass, and then the end of a sum, of a difference or
of a compare; `a`, `b` and `k` below are its operands and its carry in. -/
theorem thumbArithmetic : Obligations.ThumbArithmetic := by
  intro s rs rd d m c add sub compare
  have sum (regs : List LowReg) (a b : State → Word) (k : State → Bool) :
      thumbGate (regs.map low) s (fun s => thumbArith (low rd) (addWithCarry (a s) (b s) (k s)) s) =
        add (a s.begun) (b s.begun) (k s.begun) := by
    rw [thumbGate_low, thumbArith_sum]
  have difference (regs : List LowReg) (a b : State → Word) (k : State → Bool) :
      thumbGate (regs.map low) s (fun s => thumbArith (low rd) (addWithCarry (a s) (~~~b s) (k s)) s) =
        sub (a s.begun) (b s.begun) (k s.begun) := by
    rw [thumbGate_low, thumbArith_difference]
  have comparison (regs : List LowReg) (a b : State → Word) :
      thumbGate (regs.map low) s (fun s => thumbCompare (addWithCarry (a s) (~~~b s) true) s) =
        compare (a s.begun) (b s.begun) := by
    rw [thumbGate_low, thumbCompare_difference]
  simp only [← scaled_zero]
  exact ⟨fun rn => sum [rn, rs, rd] (·.x (low rs)) (·.x (low rn)) fun _ => false,
    fun rn => difference [rn, rs, rd] (·.x (low rs)) (·.x (low rn)) fun _ => true,
    fun imm3 => sum [rs, rd] (·.x (low rs)) (fun _ => scaled imm3 0) fun _ => false,
    fun imm3 => difference [rs, rd] (·.x (low rs)) (fun _ => scaled imm3 0) fun _ => true,
    fun imm8 => sum [rd] (·.x (low rd)) (fun _ => scaled imm8 0) fun _ => false,
    fun imm8 => difference [rd] (·.x (low rd)) (fun _ => scaled imm8 0) fun _ => true,
    fun imm8 => comparison [rd] (·.x (low rd)) fun _ => scaled imm8 0,
    sum [rs, rd] (·.x (low rd)) (·.x (low rs)) (·.cpsr.c),
    difference [rs, rd] (·.x (low rd)) (·.x (low rs)) (·.cpsr.c),
    difference [rs, rd] (fun _ => 0) (·.x (low rs)) fun _ => true,
    comparison [rs, rd] (·.x (low rd)) (·.x (low rs)),
    (exec_tCmn rs rd s).trans (thumbCompare_sum s d m)⟩

-- High registers and addresses

/-- A high-register instruction that nothing hinders runs its effect, R15 read as pc + 4 (R429). -/
theorem thumbT5_run {h1 h2 : Bool} {s : State}
    (free : s.strict = false ∨ (s.lastUsrBank = false ∧ (h1 = true ∨ h2 = true))) (rs rd : LowReg)
    (body : Word → Word → State → Outcome) :
    thumbT5 h1 h2 rs rd s body = body (s.thumbX (high h1 rd)) (s.thumbX (high h2 rs)) s.begun := by
  refine (thumbGate_run (free.imp_right And.left) _ _).trans ?_
  rcases free with lenient | ⟨-, rfl | rfl⟩
  · exact unpredIf_lenient lenient _ _ _
  · exact unpredIf_neg rfl _ _
  · exact unpredIf_neg (Bool.and_false _) _ _

/-- A high-register number without its high bit is the low register (R429). -/
theorem high_false (r : LowReg) : high false r = low r := by revert r; decide

/-- A strict machine stops a high-register instruction of two low registers (R429). -/
theorem thumbT5_stop {s : State} (strict : s.strict = true) (rs rd : LowReg) (body : Word → Word → State → Outcome) :
    thumbT5 false false rs rd s body = .fault (.unpredictable .t5LoLo) := by
  unfold thumbT5
  rw [high_false, high_false]
  exact (thumbGate_low [rd, rs] s _).trans (unpredIf_pos strict rfl _ _)

section
variable (h1 h2 : Bool) (rs rd : LowReg) (s : State)

theorem exec_tAddHi :
    exec (.tAddHi h1 h2 rs rd) s = thumbT5 h1 h2 rs rd s fun d m => thumbWriteAny (high h1 rd) (d + m) := rfl

theorem exec_tCmpHi :
    exec (.tCmpHi h1 h2 rs rd) s = thumbT5 h1 h2 rs rd s fun d m => thumbCompare (addWithCarry d (~~~m) true) := rfl

theorem exec_tMovHi :
    exec (.tMovHi h1 h2 rs rd) s = thumbT5 h1 h2 rs rd s fun _ m => thumbWriteAny (high h1 rd) m := rfl

end

/-- Settles O38: a high-register form that nothing hinders is the end of a write or of a compare, two low registers stop
a strict machine, and an address is a scaled immediate added to the pc or the stack pointer. -/
theorem thumbHighAndAddresses : Obligations.ThumbHighAndAddresses := by
  refine ⟨fun h1 h2 rs rd s free => ?high, fun rs rd s strict => ?lowLow, fun rd word8 s => ?addPc,
    fun rd word8 s free => ?addSp, fun sword7 s free => ?addSpImm⟩
  case high =>
    rw [exec_tAddHi, exec_tMovHi, exec_tCmpHi, thumbT5_run free, thumbT5_run free, thumbT5_run free]
    exact ⟨fun hd => ⟨thumbWriteAny_reg s hd _, thumbWriteAny_reg s hd _⟩,
      fun hd => ⟨thumbWriteAny_pc s hd _, thumbWriteAny_pc s hd _⟩, thumbCompare_difference s _ _⟩
  case lowLow =>
    rw [exec_tAddHi, exec_tCmpHi, exec_tMovHi]
    exact ⟨thumbT5_stop strict rs rd _, thumbT5_stop strict rs rd _, thumbT5_stop strict rs rd _⟩
  case addPc =>
    rw [← scaled_two]
    exact (thumbGate_low [rd] s _).trans (thumbWrite_begun s (low_ne rd) _)
  case addSp =>
    rw [← scaled_two]
    exact (thumbGate_run free _ _).trans (thumbWrite_begun s (low_ne rd) _)
  case addSpImm =>
    have write (v : Word) : thumbWrite regSP v s.begun = .next (after s (regsWith s 13 v) s.cpsr (s.pc + 2)) :=
      thumbWrite_begun s (by decide) v
    rw [← scaled_two]
    exact ⟨(thumbGate_run free _ _).trans (write _), (thumbGate_run free _ _).trans (write _)⟩

end Sys2Proof.Machine

/-!
PROOFS. Thumb loads (spec/45_thumb_mem_branch.md rules R450, R453, R454, R456 to R458, R460, R462, R464, R466): behind
its gate each is one read and one end, a halfword load behind the case of an odd address too.
-/

namespace Sys2Proof.Machine

-- Addresses

theorem scaled_one {n : Nat} (imm : BitVec n) : scaled imm 1 = imm.zeroExtend 32 * 2 :=
  BitVec.shiftLeft_eq_mul_twoPow _ 1

/-- An offset of whole halfwords keeps bit 0 of its base. -/
theorem getLsbD_zero_add_scaled_one {n : Nat} (b : Word) (imm : BitVec n) :
    (b + scaled imm 1).getLsbD 0 = b.getLsbD 0 := by
  have even : (scaled imm 1).getLsbD 0 = false := by simp [scaled]
  rw [BitVec.getLsbD_add (by decide), even, BitVec.carry_zero, Bool.xor_false, Bool.xor_false]

section
variable (ro rb rd : LowReg) (s : State) (access : Word → State → Outcome)

/-- A transfer with a register offset is its access at the sum, its registers being low (R453). -/
theorem thumbRegOffset_run :
    thumbRegOffset ro rb rd s access = access (s.x (low rb) + s.x (low ro)) s.begun := thumbGate_low [ro, rb, rd] s _

/-- A transfer with an immediate offset is its access at the sum, its registers being low (R460). -/
theorem thumbImmOffset_run (off5 : BitVec 5) (scale : Nat) :
    thumbImmOffset off5 scale rb rd s access = access (s.x (low rb) + scaled off5 scale) s.begun :=
  thumbGate_low [rb, rd] s _

end

-- The end of a load

/-- The end of a load, after a read that changes at most the count of free values: Rd and the pc (R450). -/
theorem thumbLoad_begun (rd : LowReg) {s : State} {l : Word × State}
    (read : ∃ d, l.2 = { s.begun with draws := d }) :
    thumbLoad rd l = .next { l.2 with gpr := regsWith s (low rd) l.1, pc := s.pc + 2 } := by
  obtain ⟨d, hl⟩ := read
  unfold thumbLoad
  rw [State.setX_reg (low_ne rd), hl]
  rfl

/-- The two ways a case with a behaviour given ends: that behaviour, and the stop of a strict machine (R20). -/
theorem unpredIf_cases (s : State) (w : Bool) (k : Unpredictable) (e : Outcome) :
    (s.strict = false ∨ w = false → unpredIf s w k e = e) ∧
    (s.strict = true → w = true → unpredIf s w k e = .fault (.unpredictable k)) :=
  ⟨fun free => free.elim (unpredIf_lenient · w k e) (unpredIf_neg · k e),
    fun strict h => unpredIf_pos strict h k e⟩

-- Each load behind its gate

section
variable (ro rb rd : LowReg) (off5 : BitVec 5) (word8 : BitVec 8) (s : State)

theorem exec_tLdrPc :
    exec (.tLdrPc rd word8) s = thumbLoad rd (cpuRead (align4 (s.pc + 4) + scaled word8 2) .word s.begun) :=
  thumbGate_low [rd] s fun s => thumbLoad rd (cpuRead (align4 (s.pc + 4) + scaled word8 2) .word s)

theorem exec_tLdrReg :
    exec (.tLdrReg ro rb rd) s = thumbLoad rd (loadRotated (s.x (low rb) + s.x (low ro)) s.begun) :=
  thumbRegOffset_run ro rb rd s fun a s => thumbLoad rd (loadRotated a s)

theorem exec_tLdrbReg :
    exec (.tLdrbReg ro rb rd) s = thumbLoad rd (cpuRead (s.x (low rb) + s.x (low ro)) .byte s.begun) :=
  thumbRegOffset_run ro rb rd s fun a s => thumbLoad rd (cpuRead a .byte s)

theorem exec_tLdsb :
    exec (.tLdsb ro rb rd) s = thumbLoad rd (loadByteSigned (s.x (low rb) + s.x (low ro)) s.begun) :=
  thumbRegOffset_run ro rb rd s fun a s => thumbLoad rd (loadByteSigned a s)

theorem exec_tLdrhReg :
    exec (.tLdrhReg ro rb rd) s = unpredIf s.begun ((s.x (low rb) + s.x (low ro)).getLsbD 0) .ldrhUnaligned
      (thumbLoad rd (loadHalfRotated (s.x (low rb) + s.x (low ro)) s.begun)) :=
  thumbRegOffset_run ro rb rd s (thumbLoadHalf rd)

theorem exec_tLdsh :
    exec (.tLdsh ro rb rd) s = unpredIf s.begun ((s.x (low rb) + s.x (low ro)).getLsbD 0) .ldrshUnaligned
      (thumbLoad rd (loadHalfSigned (s.x (low rb) + s.x (low ro)) s.begun)) :=
  thumbRegOffset_run ro rb rd s fun a s =>
    unpredIf s (a.getLsbD 0) .ldrshUnaligned (thumbLoad rd (loadHalfSigned a s))

theorem exec_tLdrImm :
    exec (.tLdrImm off5 rb rd) s = thumbLoad rd (loadRotated (s.x (low rb) + scaled off5 2) s.begun) :=
  thumbImmOffset_run rb rd s (fun a s => thumbLoad rd (loadRotated a s)) off5 2

theorem exec_tLdrbImm :
    exec (.tLdrbImm off5 rb rd) s = thumbLoad rd (cpuRead (s.x (low rb) + scaled off5 0) .byte s.begun) :=
  thumbImmOffset_run rb rd s (fun a s => thumbLoad rd (cpuRead a .byte s)) off5 0

/-- The address of `T_LDRH_imm` is odd where its base is (R464). -/
theorem exec_tLdrhImm :
    exec (.tLdrhImm off5 rb rd) s = unpredIf s.begun ((s.x (low rb)).getLsbD 0) .ldrhUnaligned
      (thumbLoad rd (loadHalfRotated (s.x (low rb) + scaled off5 1) s.begun)) := by
  rw [← getLsbD_zero_add_scaled_one _ off5]
  exact thumbImmOffset_run rb rd s (thumbLoadHalf rd) off5 1

theorem exec_tLdrSp {s : State} (free : s.strict = false ∨ s.lastUsrBank = false) :
    exec (.tLdrSp rd word8) s = thumbLoad rd (loadRotated (s.x 13 + scaled word8 2) s.begun) :=
  thumbGate_run free [regSP, low rd] fun s => thumbLoad rd (loadRotated (s.x regSP + scaled word8 2) s)

end

/-- Settles O39: behind its gate each load is one read and the end of a load, which the case of an odd address guards
for a halfword; `ends` below is all that is used of `load`. -/
theorem thumbLoads : Obligations.ThumbLoads := by
  intro s rd load
  have ends (l : Word × State) (read : ∃ d, l.2 = { s.begun with draws := d }) : thumbLoad rd l = load l :=
    thumbLoad_begun rd read
  clear_value load
  refine ⟨fun word8 => ?pc, fun ro rb => ?register, fun off5 rb => ?immediate, fun word8 free => ?sp⟩
  case pc =>
    rw [← scaled_two, exec_tLdrPc]
    exact ends _ (cpuRead_state _ .word s.begun)
  case register =>
    intro a
    rw [exec_tLdrReg, exec_tLdrbReg, exec_tLdsb, exec_tLdrhReg, exec_tLdsh,
      ends _ (loadHalfRotated_state _ s.begun), ends _ (loadHalfSigned_state _ s.begun)]
    obtain ⟨ldrh, ldrhStop⟩ :=
      unpredIf_cases s.begun (a.getLsbD 0) .ldrhUnaligned (load (loadHalfRotated a s.begun))
    obtain ⟨ldsh, ldshStop⟩ :=
      unpredIf_cases s.begun (a.getLsbD 0) .ldrshUnaligned (load (loadHalfSigned a s.begun))
    exact ⟨ends _ (loadRotated_state a s.begun), ends _ (cpuRead_state a .byte s.begun),
      ends _ (loadByteSigned_state a s.begun), fun free => ⟨ldrh free, ldsh free⟩,
      fun strict odd => ⟨ldrhStop strict odd, ldshStop strict odd⟩⟩
  case immediate =>
    rw [← scaled_two, ← scaled_one, ← scaled_zero, exec_tLdrImm, exec_tLdrbImm, exec_tLdrhImm,
      ends _ (loadHalfRotated_state _ s.begun)]
    exact ⟨ends _ (loadRotated_state _ s.begun), ends _ (cpuRead_state _ .byte s.begun),
      unpredIf_cases s.begun _ .ldrhUnaligned _⟩
  case sp =>
    rw [← scaled_two, exec_tLdrSp _ _ free]
    exact ends _ (loadRotated_state _ s.begun)

end Sys2Proof.Machine

/-!
PROOFS. Thumb branches and the two halves of BL (spec/45_thumb_mem_branch.md rules R472, R474 to R476): behind its gate
each is a new pc, and the halves of BL a write of R14 too.
-/

namespace Sys2Proof.Machine

/-- The offset of a conditional branch is the signed field in halfwords (R472). -/
theorem branchOffset8_eq (off : BitVec 8) : branchOffset8 off = off.signExtend 32 * 2 :=
  BitVec.shiftLeft_eq_mul_twoPow _ 1

/-- The offset of a branch is the signed field in halfwords (R474). -/
theorem branchOffset11_eq (off : BitVec 11) : branchOffset11 off = off.signExtend 32 * 2 :=
  BitVec.shiftLeft_eq_mul_twoPow _ 1

/-- The upper offset of BL is the signed field times 4096 (R475). -/
theorem upperOffset_eq (off : BitVec 11) : off.signExtend 32 <<< 12 = off.signExtend 32 * 4096 :=
  BitVec.shiftLeft_eq_mul_twoPow _ 12

/-- A register write and a branch, after the step has begun. -/
theorem setX_setPc_begun {d : Reg} (hd : d ≠ 15) (v p : Word) (s : State) :
    (s.begun.setX d v).setPc p = after s (regsWith s d v) s.cpsr p := by
  rw [State.setX_reg hd]
  rfl

theorem exec_tBCond (cond : Cond) (soff8 : BitVec 8) (s : State) :
    exec (.tBCond cond soff8) s =
      if condPassed cond s.cpsr then .next (after s s.gpr s.cpsr (s.pc + 4 + branchOffset8 soff8))
      else .next (after s s.gpr s.cpsr (s.pc + 2)) :=
  thumbGate_low [] s fun s =>
    if condPassed cond s.cpsr then .next (s.setPc (s.pc + 4 + branchOffset8 soff8)) else .next s.nextThumb

theorem exec_tB (off11 : BitVec 11) (s : State) :
    exec (.tB off11) s = .next (after s s.gpr s.cpsr (s.pc + 4 + branchOffset11 off11)) :=
  thumbGate_low [] s fun s => .next (s.setPc (s.pc + 4 + branchOffset11 off11))

section
variable (off11 : BitVec 11) {s : State} (free : s.strict = false ∨ s.lastUsrBank = false)
include free

theorem exec_tBlHi :
    exec (.tBlHi off11) s =
      .next (after s (regsWith s 14 (s.pc + 4 + off11.signExtend 32 <<< 12)) s.cpsr (s.pc + 2)) :=
  (thumbGate_run free [regLR] fun s => thumbWrite regLR (s.pc + 4 + off11.signExtend 32 <<< 12) s).trans
    (thumbWrite_begun s (by decide) _)

theorem exec_tBlLo :
    exec (.tBlLo off11) s =
      .next (after s (regsWith s 14 ((s.pc + 2) ||| 1)) s.cpsr (align2 (s.x 14 + scaled off11 1))) := by
  rw [← setX_setPc_begun (by decide)]
  exact thumbGate_run free [regLR] fun s =>
    .next ((s.setX regLR ((s.pc + 2) ||| 1)).setPc (align2 (s.x regLR + scaled off11 1)))

end

/-- Settles O42: behind its gate each branch is a new pc, its offset the field scaled, and each half of BL writes R14
too. -/
theorem thumbBranches : Obligations.ThumbBranches := by
  refine ⟨fun cond soff8 s => ?conditional, fun off11 s => ?always, fun off11 s free => ?link⟩
  case conditional =>
    rw [exec_tBCond, ← branchOffset8_eq]
    split <;> rfl
  case always =>
    rw [← branchOffset11_eq]
    exact exec_tB off11 s
  case link =>
    rw [← upperOffset_eq, ← scaled_one]
    exact ⟨exec_tBlHi off11 free, exec_tBlLo off11 free⟩

end Sys2Proof.Machine

/-!
PROOFS. Exception entry (spec/60_exceptions.md rules R506, R508, R509): an entry writes the SPSR and R14 of the mode it
enters, which that mode shares with no other, then the CPSR and the pc.
-/

namespace Sys2Proof.Machine

-- The mode an exception enters

/-- Every exception enters a mode with a bank and an SPSR of its own (R506). -/
theorem Exc.mode_own (e : Exc) : e.mode ≠ .usr ∧ e.mode ≠ .sys := by
  cases e <;> decide

/-- The link register is one of each mode's own bank, User and System mode sharing theirs (R33). -/
theorem bankOf_link (m : Mode) : bankOf m regLR = if m = .sys then .usr else m := by
  cases m <;> rfl

/-- The link register of an entered mode is that of no other mode (R33, R506). -/
theorem Exc.bankOf_link_eq_iff (e : Exc) (m : Mode) : bankOf e.mode regLR = bankOf m regLR ↔ m = e.mode := by
  obtain ⟨notUsr, notSys⟩ := e.mode_own
  rw [bankOf_link, bankOf_link, if_neg notSys]
  split
  case isTrue h => exact iff_of_false notUsr (h ▸ notSys.symm)
  case isFalse => exact eq_comm

/-- The SPSR an entry saves is the old CPSR, read as a word (R56, R508). -/
theorem Cpsr.toWord_saved (p : Cpsr) : p.saved.toWord = p.toWord := rfl

-- What an entry does

section
variable (e : Exc) (link : Word) (s : State)

@[simp] theorem takeExceptionWithLink_pc : (takeExceptionWithLink e link s).pc = e.vector := rfl

/-- The status an entry leaves (R508). -/
theorem takeExceptionWithLink_cpsr :
    (takeExceptionWithLink e link s).cpsr =
      { s.cpsr with mode := e.mode, t := false, i := true, f := if e = .fiq then true else s.cpsr.f } := by
  have fiqOnly : (s.cpsr.f || e == .fiq) = if e = .fiq then true else s.cpsr.f := by
    by_cases h : e = .fiq <;> simp [h]
  rw [← fiqOnly]
  rfl

/-- An entry writes the link into R14 of the entered mode and no other register (R508). -/
theorem takeExceptionWithLink_regOf {i : Reg} (hi : i ≠ 15) (m : Mode) :
    (takeExceptionWithLink e link s).regOf m i = if i = 14 ∧ m = e.mode then link else s.regOf m i := by
  have written : (takeExceptionWithLink e link s).regOf m i =
      if regLR = i ∧ bankOf e.mode regLR = bankOf m i then link else (s.setSpsr e.mode s.cpsr.saved).regOf m i :=
    State.regOf_setRegOf (by decide) hi _ e.mode m link
  have same : (regLR = i ∧ bankOf e.mode regLR = bankOf m i) ↔ i = 14 ∧ m = e.mode := by
    constructor
    · rintro ⟨rfl, h⟩
      exact ⟨rfl, (e.bankOf_link_eq_iff m).mp h⟩
    · rintro ⟨rfl, h⟩
      exact ⟨rfl, (e.bankOf_link_eq_iff m).mpr h⟩
  have kept : (s.setSpsr e.mode s.cpsr.saved).regOf m i = s.regOf m i := by simp [State.regOf]
  rw [written, kept]
  exact if_congr same rfl rfl

/-- An entry saves the CPSR in the SPSR of the entered mode and writes no other (R508). -/
theorem takeExceptionWithLink_spsrOf (m : Mode) :
    (takeExceptionWithLink e link s).spsrOf m = if m = e.mode then some s.cpsr.saved else s.spsrOf m := by
  have read : (takeExceptionWithLink e link s).spsrOf m = (s.setSpsr e.mode s.cpsr.saved).spsrOf m := by
    simp [takeExceptionWithLink, State.spsrOf]
  rw [read, State.spsrOf_setSpsr]
  exact if_congr ⟨fun h => h.1.symm, fun h => ⟨h.symm, e.mode_own⟩⟩ rfl rfl

@[simp] theorem takeExceptionWithLink_mem : (takeExceptionWithLink e link s).mem = s.mem := by
  simp [takeExceptionWithLink]
@[simp] theorem takeExceptionWithLink_dev : (takeExceptionWithLink e link s).dev = s.dev := by
  simp [takeExceptionWithLink]
@[simp] theorem takeExceptionWithLink_lastUsrBank :
    (takeExceptionWithLink e link s).lastUsrBank = s.lastUsrBank := by
  simp [takeExceptionWithLink]
@[simp] theorem takeExceptionWithLink_params : (takeExceptionWithLink e link s).params = s.params := by
  simp [takeExceptionWithLink]
@[simp] theorem takeExceptionWithLink_draws : (takeExceptionWithLink e link s).draws = s.draws := by
  simp [takeExceptionWithLink]
@[simp] theorem takeExceptionWithLink_iteration : (takeExceptionWithLink e link s).iteration = s.iteration := by
  simp [takeExceptionWithLink]
@[simp] theorem takeExceptionWithLink_dmaResume : (takeExceptionWithLink e link s).dmaResume = s.dmaResume := by
  simp [takeExceptionWithLink]

end

/-- Settles O51: the SPSR and R14 of the entered mode are that mode's own, so an entry's writes show nowhere else; the
vectors, modes and links are the tables of R506 and R509. -/
theorem exceptionEntry : Obligations.ExceptionEntry := by
  refine ⟨fun e link s => ⟨⟨s.cpsr.saved, ?savedIn, Cpsr.toWord_saved _⟩, ?linkIn,
    takeExceptionWithLink_cpsr e link s, rfl, fun m i hi other => ?registers, fun m other => ?statuses, ?frame⟩,
    ?tables, fun e s => ?links⟩
  case savedIn => rw [takeExceptionWithLink_spsrOf, if_pos rfl]
  case linkIn => rw [takeExceptionWithLink_regOf e link s (by decide), if_pos ⟨rfl, rfl⟩]
  case registers => rw [takeExceptionWithLink_regOf e link s hi, if_neg other]
  case statuses => rw [takeExceptionWithLink_spsrOf, if_neg other]
  case frame => simp
  case tables => decide
  case links => cases e <;> rfl

end Sys2Proof.Machine

/-!
PROOFS. The PPU (spec/60_exceptions.md rules R542, R552, R553): a cycle moves the counters one place on in the frame; on
a new line it raises the line's events, on a new dot HBlank.
-/

namespace Sys2Proof.Machine

-- Requests and triggers

/-- A device sets its bit of `IF` and leaves the others (R524). -/
theorem Devices.request_iflags (d : Devices) (k : Nat) {j : Nat} (hj : j < 14) :
    (d.request k).iflags.getLsbD j = true ↔ d.iflags.getLsbD j = true ∨ j = k := by
  have bit : (1#14 <<< k).getLsbD j = true ↔ j = k := by
    simp [hj]
    omega
  rw [← bit]
  simp [Devices.request]

/-- What a trigger does with one channel (R542). -/
def triggerChannel (selects : Fin 4 → DmaChannel → Bool) (d : Devices) (n : Fin 4) : Devices :=
  if d.dma[n].armed && selects n d.dma[n] then d.setDma n { d.dma[n] with due := true } else d

section
variable (selects : Fin 4 → DmaChannel → Bool) (d : Devices)

theorem trigger_eq_channels : trigger selects d = ([0, 1, 2, 3] : List (Fin 4)).foldl (triggerChannel selects) d := rfl

theorem triggerChannel_frame (n : Fin 4) :
    triggerChannel selects d n = { d with dma := (triggerChannel selects d n).dma } := by
  unfold triggerChannel
  split <;> rfl

/-- A trigger writes the DMA channels and no other device. -/
theorem trigger_frame : trigger selects d = { d with dma := (trigger selects d).dma } := by
  have channels (ns : List (Fin 4)) : ∀ d : Devices,
      ns.foldl (triggerChannel selects) d = { d with dma := (ns.foldl (triggerChannel selects) d).dma } := by
    induction ns with
    | nil => exact fun _ => rfl
    | cons n ns ih =>
      intro d
      rw [List.foldl_cons, ih, triggerChannel_frame]
  exact channels _ d

theorem triggerChannel_same (n : Fin 4) :
    (triggerChannel selects d n).dma[n] =
      { d.dma[n] with due := d.dma[n].due || (d.dma[n].armed && selects n d.dma[n]) } := by
  unfold triggerChannel
  cases d.dma[n].armed && selects n d.dma[n] with
  | true => simp [Devices.setDma]
  | false => rw [Bool.or_false]; rfl

theorem triggerChannel_other {m n : Fin 4} (h : m ≠ n) : (triggerChannel selects d m).dma[n] = d.dma[n] := by
  have apart : m.val ≠ n.val := Fin.val_ne_of_ne h
  unfold triggerChannel
  split <;> simp [Devices.setDma, apart]

theorem foldl_triggerChannel_other {n : Fin 4} {ns : List (Fin 4)} (h : n ∉ ns) :
    (ns.foldl (triggerChannel selects) d).dma[n] = d.dma[n] := by
  induction ns generalizing d with
  | nil => rfl
  | cons m ms ih =>
    obtain ⟨apart, absent⟩ : n ≠ m ∧ n ∉ ms := by simpa using h
    rw [List.foldl_cons, ih _ absent, triggerChannel_other selects d apart.symm]

/-- A trigger makes due each armed channel it selects and changes nothing else of a channel (R542). -/
theorem trigger_dma (n : Fin 4) :
    (trigger selects d).dma[n] =
      { d.dma[n] with due := d.dma[n].due || (d.dma[n].armed && selects n d.dma[n]) } := by
  have listed : n ∈ ([0, 1, 2, 3] : List (Fin 4)) := by revert n; decide
  obtain ⟨before, after, place⟩ := List.append_of_mem listed
  have nodup : (before ++ n :: after).Nodup := place ▸ by decide
  obtain ⟨notBefore, notAfter⟩ : n ∉ before ∧ n ∉ after := by
    simpa using (List.nodup_cons.mp (List.nodup_middle.mp nodup)).1
  rw [trigger_eq_channels, place, List.foldl_append, List.foldl_cons, foldl_triggerChannel_other _ _ notAfter,
    triggerChannel_same, foldl_triggerChannel_other _ _ notBefore]

end

-- The events of a dot and of a line

/-- HBlank or VBlank, where it is raised: the channels armed with its timing become due, and its request is set where it
is enabled (R542, R553). -/
def ppuEvent (raised : Prop) [Decidable raised] (k : Nat) (timing : BitVec 2) (enabled : Bool) (d : Devices) :
    Devices :=
  if raised then
    let d1 := trigger (fun _ c => c.timing == timing) d
    if enabled then d1.request k else d1
  else d

theorem hblankEvent_eq_ppuEvent (raised : Prop) [Decidable raised] (d : Devices) :
    (if raised then hblankEvent d else d) = ppuEvent raised 1 2 d.dispstat.hblankIrq d := by
  rw [hblankEvent, ppuEvent, trigger_frame]

theorem vblankEvent_eq_ppuEvent (raised : Prop) [Decidable raised] (d : Devices) :
    (if raised then vblankEvent d else d) = ppuEvent raised 0 1 d.dispstat.vblankIrq d := by
  rw [vblankEvent, ppuEvent, trigger_frame]

section
variable (raised : Prop) [Decidable raised] (k : Nat) (timing : BitVec 2) (enabled : Bool) (d : Devices)

theorem ppuEvent_frame :
    ppuEvent raised k timing enabled d = { d with
      dma := (ppuEvent raised k timing enabled d).dma, iflags := (ppuEvent raised k timing enabled d).iflags } := by
  unfold ppuEvent
  rw [trigger_frame]
  cases enabled <;> split <;> rfl

theorem ppuEvent_iflags {j : Nat} (hj : j < 14) :
    (ppuEvent raised k timing enabled d).iflags.getLsbD j = true ↔
      d.iflags.getLsbD j = true ∨ (j = k ∧ raised ∧ enabled = true) := by
  unfold ppuEvent
  rw [trigger_frame]
  split
  case isTrue h =>
    cases enabled with
    | true => exact (Devices.request_iflags _ k hj).trans (by simp [h])
    | false => simp
  case isFalse h => simp [h]

theorem ppuEvent_due (n : Fin 4) :
    (ppuEvent raised k timing enabled d).dma[n].due = true ↔
      d.dma[n].due = true ∨ (d.dma[n].armed = true ∧ raised ∧ d.dma[n].timing = timing) := by
  by_cases h : raised
  · have triggered : (ppuEvent raised k timing enabled d).dma = (trigger (fun _ c => c.timing == timing) d).dma := by
      rw [ppuEvent, if_pos h, trigger_frame]
      cases enabled <;> rfl
    rw [triggered, trigger_dma]
    simp [h]
  · rw [ppuEvent, if_neg h]
    simp [h]

end

section
variable (d : Devices)

/-- Entering a line raises VBlank at line 160, then requests VCount at the line of `DISPSTAT` 15:8 (R553). -/
theorem enterLine_eq :
    enterLine d =
      let e := ppuEvent (d.ppu.line = 160) 0 1 d.dispstat.vblankIrq d
      if d.vcountMatch && d.dispstat.vcountIrq then e.request 2 else e := by
  rw [enterLine, vblankEvent_eq_ppuEvent, ppuEvent_frame]
  rfl

theorem enterLine_ppu : (enterLine d).ppu = d.ppu := by
  rw [enterLine_eq, ppuEvent_frame]
  dsimp only
  split <;> rfl

theorem enterLine_iflags {j : Nat} (hj : j < 14) :
    (enterLine d).iflags.getLsbD j = true ↔ d.iflags.getLsbD j = true ∨
      (j = 0 ∧ d.ppu.line = 160 ∧ d.dispstat.vblankIrq = true) ∨
      (j = 2 ∧ d.ppu.line.val = d.dispstat.lyc.toNat ∧ d.dispstat.vcountIrq = true) := by
  have vcount : (d.vcountMatch && d.dispstat.vcountIrq) = true ↔
      d.ppu.line.val = d.dispstat.lyc.toNat ∧ d.dispstat.vcountIrq = true := by
    simp [Devices.vcountMatch]
  rw [enterLine_eq, ← vcount, ← or_assoc, ← ppuEvent_iflags _ 0 1 _ _ hj]
  dsimp only
  split
  case isTrue h => rw [Devices.request_iflags _ _ hj]; simp [h]
  case isFalse h => simp [h]

/-- Entering a line makes due the channels armed with VBlank timing at line 160 (R542, R553). -/
theorem enterLine_due (n : Fin 4) :
    (enterLine d).dma[n].due = true ↔ d.dma[n].due = true ∨
      (d.dma[n].armed = true ∧ d.ppu.line = 160 ∧ d.dma[n].timing = 1) := by
  rw [enterLine_eq, ← ppuEvent_due _ 0 1 d.dispstat.vblankIrq]
  dsimp only
  split <;> rfl

end

-- The counters

/-- The cycles from the start of the frame (R552). -/
def Ppu.position (p : Ppu) : Nat := (p.line.val * 308 + p.dot.val) * 4 + p.sub.val

/-- The counters one cycle on: four cycles to a dot, 308 dots to a line, 228 lines to a frame (R552). -/
def Ppu.next (p : Ppu) : Ppu :=
  if p.sub = 3 then if p.dot = 307 then ⟨p.line + 1, 0, 0⟩ else ⟨p.line, p.dot + 1, 0⟩
  else { p with sub := p.sub + 1 }

theorem Ppu.position_lt (p : Ppu) : p.position < 280896 := by
  unfold Ppu.position
  omega

/-- The counters count the cycles of a frame, the last followed by the first (R552). -/
theorem Ppu.position_next (p : Ppu) : p.next.position = (p.position + 1) % 280896 := by
  have lines : (p.line + 1).val = (p.line.val + 1) % 228 := Fin.val_add p.line 1
  have dots : (p.dot + 1).val = (p.dot.val + 1) % 308 := Fin.val_add p.dot 1
  have subs : (p.sub + 1).val = (p.sub.val + 1) % 4 := Fin.val_add p.sub 1
  have lastSub : p.sub = 3 ↔ p.sub.val = 3 := Fin.ext_iff
  have lastDot : p.dot = 307 ↔ p.dot.val = 307 := Fin.ext_iff
  unfold Ppu.next Ppu.position
  split
  case isTrue full =>
    have sub := lastSub.mp full
    split
    case isTrue last =>
      have dot := lastDot.mp last
      simp only [Fin.val_zero]
      omega
    case isFalse inside =>
      have dot := mt lastDot.mpr inside
      simp only [Fin.val_zero]
      omega
  case isFalse within =>
    have sub := mt lastSub.mpr within
    dsimp only
    omega

-- A cycle

/-- A new dot within the line raises HBlank at dot 240 of a line below 160 (R552, R553). -/
theorem ppuCycle_newDot {d : Devices} (full : d.ppu.sub = 3) (inside : d.ppu.dot ≠ 307) :
    ppuCycle d = ppuEvent (d.ppu.dot = 239 ∧ d.ppu.line.val < 160) 1 2 d.dispstat.hblankIrq
      { d with ppu := d.ppu.next } := by
  have reached : (decide (d.ppu.dot + 1 = 240) && decide (d.ppu.line.val < 160)) = true ↔
      d.ppu.dot = 239 ∧ d.ppu.line.val < 160 := by
    have dot : d.ppu.dot = 239 ↔ d.ppu.dot + 1 = 239 + 1 := (add_left_inj 1).symm
    rw [dot, Bool.and_eq_true, decide_eq_true_iff, decide_eq_true_iff]
    rfl
  rw [ppuCycle, Ppu.next, if_pos full, if_pos full, nextDot, if_neg inside, if_neg inside]
  exact (if_congr reached rfl rfl).trans (hblankEvent_eq_ppuEvent _ _)

/-- What one cycle does: within a dot it only counts; after dot 307 it enters the next line; else it may raise HBlank
(R552, R553). -/
theorem ppuCycle_cases (d : Devices) :
    (d.ppu.sub ≠ 3 ∧ ppuCycle d = { d with ppu := d.ppu.next }) ∨
    (d.ppu.sub = 3 ∧ d.ppu.dot = 307 ∧ ppuCycle d = enterLine { d with ppu := d.ppu.next }) ∨
    (d.ppu.sub = 3 ∧ d.ppu.dot ≠ 307 ∧
      ppuCycle d = ppuEvent (d.ppu.dot = 239 ∧ d.ppu.line.val < 160) 1 2 d.dispstat.hblankIrq
        { d with ppu := d.ppu.next }) := by
  by_cases full : d.ppu.sub = 3
  · by_cases last : d.ppu.dot = 307
    · refine .inr (.inl ⟨full, last, ?_⟩)
      rw [ppuCycle, Ppu.next, if_pos full, if_pos full, nextDot, if_pos last, if_pos last]
    · exact .inr (.inr ⟨full, last, ppuCycle_newDot full last⟩)
  · refine .inl ⟨full, ?_⟩
    rw [ppuCycle, Ppu.next, if_neg full, if_neg full]

/-- A cycle moves the counters one place on (R552). -/
theorem ppuCycle_ppu (d : Devices) : (ppuCycle d).ppu = d.ppu.next := by
  obtain ⟨_, cycle⟩ | ⟨_, _, cycle⟩ | ⟨_, _, cycle⟩ := ppuCycle_cases d
  · rw [cycle]
  · rw [cycle, enterLine_ppu]
  · rw [cycle, ppuEvent_frame]

/-- `k` cycles move the counters `k` places on, modulo the frame (R552). -/
theorem iterate_ppuCycle_position (k : Nat) (d : Devices) :
    (iterate ppuCycle k d).ppu.position = (d.ppu.position + k) % 280896 := by
  induction k generalizing d with
  | zero => exact (Nat.mod_eq_of_lt d.ppu.position_lt).symm
  | succ k ih =>
    calc (iterate ppuCycle (k + 1) d).ppu.position
      _ = ((ppuCycle d).ppu.position + k) % 280896 := ih (ppuCycle d)
      _ = ((d.ppu.position + 1) % 280896 + k) % 280896 := by rw [ppuCycle_ppu, Ppu.position_next]
      _ = (d.ppu.position + (k + 1)) % 280896 := by rw [Nat.mod_add_mod, Nat.add_right_comm, Nat.add_assoc]

/-- Settles O57: the counters are one position, by induction on the cycles; what one cycle requests and makes due is
read off the three things it can do. -/
theorem ppuAdvances : Obligations.PpuAdvances := by
  refine ⟨fun cycles s => iterate_ppuCycle_position cycles s.dev, fun d => ?_⟩
  dsimp only
  rw [ppuCycle_ppu]
  obtain ⟨counts, cycle⟩ | ⟨full, last, cycle⟩ | ⟨full, inside, cycle⟩ := ppuCycle_cases d
  · rw [cycle]
    simp [counts]
  · rw [cycle]
    refine ⟨fun j hj => ?_, fun n => ?_⟩
    · rw [enterLine_iflags _ hj]
      simp [full, last]
    · rw [enterLine_due]
      simp [full, last]
  · rw [cycle]
    refine ⟨fun j hj => ?_, fun n => ?_⟩
    · rw [ppuEvent_iflags _ _ _ _ _ hj]
      simp [full, inside]
    · rw [ppuEvent_due]
      simp [full, inside]

end Sys2Proof.Machine

/-!
PROOFS. Direct boot (spec/70_reset_and_hazards.md rule R603): the register file it leaves, by the table of R33, and what
a fetch reads where no BIOS image is.
-/

namespace Sys2Proof.Machine

-- The register file after direct boot

/-- The stack pointer that direct boot leaves in a bank (R603). -/
def bootStack : Mode → Word
  | .usr | .sys => 0x03007F00
  | .irq => 0x03007FA0
  | .svc => 0x03007FE0
  | .fiq | .abt | .und => 0

/-- Direct boot leaves 0 in every register but the stack pointers (R603). -/
theorem resetRegisters_direct (m : Mode) :
    ∀ i : Reg, i ≠ 15 → (resetRegisters true)[physReg m i] = if i = 13 then bootStack m else 0 := by
  cases m <;> decide

/-- The registers of a mode after direct boot (R33, R603). -/
theorem State.resetWith_regOf_direct {p : Params} (direct : p.directBoot = true) (bios : Option (Vector Byte 0x4000))
    (rom : List Byte) (m : Mode) {i : Reg} (hi : i ≠ 15) :
    (State.resetWith p bios rom).regOf m i = if i = 13 then bootStack m else 0 := by
  rw [← resetRegisters_direct m i hi, ← direct]
  rfl

/-- Every SPSR is 0 after reset (R603). -/
theorem State.resetWith_spsrOf (p : Params) (bios : Option (Vector Byte 0x4000)) (rom : List Byte) {m : Mode} {q : Psr}
    (h : (State.resetWith p bios rom).spsrOf m = some q) : q.toWord = 0 := by
  rw [State.spsrOf_eq_map, Option.map_eq_some_iff] at h
  obtain ⟨n, -, rfl⟩ := h
  rw [State.resetWith, Fin.getElem_fin, Vector.getElem_replicate]
  rfl

-- Aligned addresses

/-- Masking the lowest `n` bits away is shifting them out and back. -/
theorem and_allOnes_shiftLeft (a : Word) (n : Nat) : a &&& BitVec.allOnes 32 <<< n = a >>> n <<< n := by
  ext i hi
  by_cases h : i < n
  · simp [h]
  · have mask : (BitVec.allOnes 32)[i - n]'(by omega) = true := BitVec.getElem_allOnes _ _
    simp [-BitVec.reduceAllOnes, h, mask, Nat.add_sub_cancel' (not_lt.mp h), BitVec.getLsbD_eq_getElem hi]

/-- `Align(a, n)` is the multiple of `n` at or below `a` (R12). -/
theorem Width.align_toNat (w : Width) (a : Word) : (w.align a).toNat = a.toNat / w.bytes * w.bytes := by
  have shifted (n : Nat) : (a &&& BitVec.allOnes 32 <<< n).toNat = a.toNat / 2 ^ n * 2 ^ n := by
    rw [and_allOnes_shiftLeft, BitVec.toNat_shiftLeft, BitVec.toNat_ushiftRight, Nat.shiftLeft_eq,
      Nat.shiftRight_eq_div_pow]
    exact Nat.mod_eq_of_lt ((Nat.div_mul_le_self _ _).trans_lt a.isLt)
  cases w with
  | byte => exact ((Nat.mul_one _).trans (Nat.div_one _)).symm
  | half => exact shifted 1
  | word => exact shifted 2

/-- The bytes of an aligned access lie below a multiple of its width that the address lies below. -/
theorem Width.align_add_lt {w : Width} {a : Word} {k n : Nat} (ha : a.toNat < n) (hn : w.bytes ∣ n)
    (hk : k < w.bytes) : (w.align a + BitVec.ofNat 32 k).toNat < n := by
  obtain ⟨q, rfl⟩ := hn
  have aligned := w.align_toNat a
  cases w <;> simp only [Width.bytes] at * <;> bv_omega

-- Reads of free bytes

/-- A byte below the others is the lowest eight bits of their word (R82). -/
theorem setWidth_append_byte {n : Nat} (x : BitVec n) (b : Byte) :
    (x ++ b).setWidth 32 = b.setWidth 32 ||| x.setWidth 32 <<< 8 := by
  ext i hi
  by_cases h : i < 8
  · simp [BitVec.getLsbD_append, h]
  · simp [BitVec.getLsbD_append, h, BitVec.getLsbD_of_ge b i (not_lt.mp h)]

/-- Two free bytes make a halfword (R82). -/
theorem freeBytes_two (s : State) :
    freeBytes s 2 = (Config.freeByte (s.draws + 1) ++ Config.freeByte s.draws).setWidth 32 := by
  simp [freeBytes, setWidth_append_byte]

/-- Four free bytes make a word (R82). -/
theorem freeBytes_four (s : State) :
    freeBytes s 4 = Config.freeByte (s.draws + 3) ++ Config.freeByte (s.draws + 2) ++ Config.freeByte (s.draws + 1) ++
      Config.freeByte s.draws := by
  refine Eq.trans ?_ (BitVec.setWidth_eq _)
  rw [setWidth_append_byte, setWidth_append_byte, setWidth_append_byte]
  simp [freeBytes, BitVec.shiftLeft_or_distrib, ← BitVec.shiftLeft_add, BitVec.or_assoc]

/-- An access each of whose bytes is a draw reads free bytes (R18, R82). -/
theorem busRead_eq_freeBytes {f : Bool} {a : Word} {w : Width} {s : State}
    (draw : ∀ k < w.bytes, ∀ d, readByte f (a + BitVec.ofNat 32 k) { s with draws := d } =
      { s with draws := d }.drawByte) :
    busRead f a w s = (freeBytes s w.bytes, { s with draws := s.draws + w.bytes }) := by
  have first : readByte f a s = s.drawByte := by simpa using draw 0 (by cases w <;> decide) s.draws
  cases w with
  | byte => simp [busRead, first, State.drawByte, freeBytes, Width.bytes]
  | half => simp [busRead, first, draw 1 (by decide), State.drawByte, freeBytes_two, Width.bytes]
  | word =>
    simp [busRead, first, draw 1 (by decide), draw 2 (by decide), draw 3 (by decide), State.drawByte, freeBytes_four,
      Width.bytes]

/-- Without a BIOS image a byte of the BIOS region is a draw (R603). -/
theorem readByte_absentBios {s : State} (absent : s.params.biosImage = false) {a : Word} (ha : region s.bus a = .bios)
    (f : Bool) : readByte f a s = s.drawByte := by
  unfold readByte
  rw [ha, absent, Bool.and_false]
  rfl

/-- Without a BIOS image an aligned access of the default map's BIOS region reads free bytes (R88, R603). -/
theorem busRead_absentBios {s : State} (gba : s.bus = Bus.gba) (absent : s.params.biosImage = false) {a : Word}
    (ha : a.toNat < 0x4000) (f : Bool) (w : Width) :
    busRead f (w.align a) w s = (freeBytes s w.bytes, { s with draws := s.draws + w.bytes }) := by
  refine busRead_eq_freeBytes fun k hk d => readByte_absentBios (s := { s with draws := d }) absent ?bios f
  have bytes : w.bytes ∣ 0x4000 := by cases w <;> decide
  have below := Width.align_add_lt ha bytes hk
  show region s.bus _ = .bios
  rw [gba]
  exact region_gba (r := ⟨0x00000000, 0x00003FFF, .bios, 0⟩) (by decide) ⟨Nat.zero_le _, Nat.le_of_lt_succ below⟩

/-- Settles O7: the registers by the table of R33, and a fetch as an aligned access of the absent BIOS. -/
theorem resetDirectBoot : Obligations.ResetDirectBoot := by
  refine ⟨fun p bios rom direct => ?boot, fun s gba absent ha => ⟨fun arm => ?arm, fun thumb => ?thumb⟩⟩
  case boot =>
    intro s
    have reg (m : Mode) {i : Reg} (hi : i ≠ 15) : s.regOf m i = if i = 13 then bootStack m else 0 :=
      State.resetWith_regOf_direct direct bios rom m hi
    have zero {m : Mode} (hm : bootStack m = 0) {i : Reg} (hi : i ≠ 15) : s.regOf m i = 0 := by
      rw [reg m hi, hm, ite_self]
    have status : s.cpsr = resetCpsr true := congrArg resetCpsr direct
    refine ⟨by rw [status]; rfl, if_pos direct, fun i hi => ?low, reg .usr (by decide), reg .usr (by decide),
      reg .irq (by decide), reg .irq (by decide), reg .svc (by decide), reg .svc (by decide),
      fun i _ hi => zero rfl (by bv_omega), fun i _ hi => ⟨zero rfl (by bv_omega), zero rfl (by bv_omega)⟩,
      fun m q => State.resetWith_spsrOf p bios rom, rfl, rfl, ?image⟩
    case low => rw [reg .usr (by bv_omega), if_neg (by bv_omega)]
    case image => cases bios <;> simp [s, State.resetWith]
  case arm =>
    have read : busRead s.inBios (align4 s.pc) .word s = (freeBytes s 4, { s with draws := s.draws + 4 }) :=
      busRead_absentBios gba absent ha _ .word
    simp [fetch, arm, read]
  case thumb =>
    have read : busRead s.inBios (align2 s.pc) .half s = (freeBytes s 2, { s with draws := s.draws + 2 }) :=
      busRead_absentBios gba absent ha _ .half
    simp [fetch, thumb, read]

end Sys2Proof.Machine

/-!
PROOFS. Encoding and decoding (spec/30_encoding.md section 5, rules R21, R150, R170, R171): every instruction's word
matches a row that reads it back, every row keeps all bits of a word, the rows of a table are apart, and the rows with the
unallocated spaces cover all words.
-/

namespace Sys2Proof.Machine

-- Decoding an encoded instruction

open Laws.Encoding in
/-- The word of every well-formed instruction matches a row that reads the instruction back (R150). -/
theorem encoding_statement (i : Instr) : Laws.Encoding.Statement i := by
  cases i
  exacts [andImm _ _ _ _ _ _, andRsi _ _ _ _ _ _ _, andRsr _ _ _ _ _ _ _, eorImm _ _ _ _ _ _, eorRsi _ _ _ _ _ _ _,
    eorRsr _ _ _ _ _ _ _, subImm _ _ _ _ _ _, subRsi _ _ _ _ _ _ _, subRsr _ _ _ _ _ _ _, rsbImm _ _ _ _ _ _,
    rsbRsi _ _ _ _ _ _ _, rsbRsr _ _ _ _ _ _ _, addImm _ _ _ _ _ _, addRsi _ _ _ _ _ _ _, addRsr _ _ _ _ _ _ _,
    adcImm _ _ _ _ _ _, adcRsi _ _ _ _ _ _ _, adcRsr _ _ _ _ _ _ _, sbcImm _ _ _ _ _ _, sbcRsi _ _ _ _ _ _ _,
    sbcRsr _ _ _ _ _ _ _, rscImm _ _ _ _ _ _, rscRsi _ _ _ _ _ _ _, rscRsr _ _ _ _ _ _ _, tstImm _ _ _ _ _,
    tstRsi _ _ _ _ _ _, tstRsr _ _ _ _ _ _, teqImm _ _ _ _ _, teqRsi _ _ _ _ _ _, teqRsr _ _ _ _ _ _,
    cmpImm _ _ _ _ _, cmpRsi _ _ _ _ _ _, cmpRsr _ _ _ _ _ _, cmnImm _ _ _ _ _, cmnRsi _ _ _ _ _ _,
    cmnRsr _ _ _ _ _ _, orrImm _ _ _ _ _ _, orrRsi _ _ _ _ _ _ _, orrRsr _ _ _ _ _ _ _, movImm _ _ _ _ _ _,
    movRsi _ _ _ _ _ _ _, movRsr _ _ _ _ _ _ _, bicImm _ _ _ _ _ _, bicRsi _ _ _ _ _ _ _, bicRsr _ _ _ _ _ _ _,
    mvnImm _ _ _ _ _ _, mvnRsi _ _ _ _ _ _ _, mvnRsr _ _ _ _ _ _ _, mul _ _ _ _ _ _, mla _ _ _ _ _ _,
    umull _ _ _ _ _ _, umlal _ _ _ _ _ _, smull _ _ _ _ _ _, smlal _ _ _ _ _ _, mrs _ _ _ _ _ _ _,
    msrReg _ _ _ _ _ _ _, msrImm _ _ _ _ _ _, swp _ _ _ _ _, swpb _ _ _ _ _, bx _ _ _, strhReg _ _ _ _ _ _ _ _,
    strhImm _ _ _ _ _ _ _ _, ldrhReg _ _ _ _ _ _ _ _, ldrhImm _ _ _ _ _ _ _ _, ldrsbReg _ _ _ _ _ _ _ _,
    ldrsbImm _ _ _ _ _ _ _ _, ldrshReg _ _ _ _ _ _ _ _, ldrshImm _ _ _ _ _ _ _ _, ldrImmPre _ _ _ _ _ _,
    ldrImmPost _ _ _ _ _, ldrRegPre _ _ _ _ _ _ _ _, ldrRegPost _ _ _ _ _ _ _, strImmPre _ _ _ _ _ _,
    strImmPost _ _ _ _ _, strRegPre _ _ _ _ _ _ _ _, strRegPost _ _ _ _ _ _ _, ldrbImmPre _ _ _ _ _ _,
    ldrbImmPost _ _ _ _ _, ldrbRegPre _ _ _ _ _ _ _ _, ldrbRegPost _ _ _ _ _ _ _, strbImmPre _ _ _ _ _ _,
    strbImmPost _ _ _ _ _, strbRegPre _ _ _ _ _ _ _ _, strbRegPost _ _ _ _ _ _ _, ldrtImm _ _ _ _ _,
    ldrtReg _ _ _ _ _ _ _, strtImm _ _ _ _ _, strtReg _ _ _ _ _ _ _, ldrbtImm _ _ _ _ _, ldrbtReg _ _ _ _ _ _ _,
    strbtImm _ _ _ _ _, strbtReg _ _ _ _ _ _ _, und _ _ _, ldm _ _ _ _ _ _, stm _ _ _ _ _ _, ldmUsr _ _ _ _ _ _,
    ldmRet _ _ _ _ _ _, stmUsr _ _ _ _ _ _, b _ _, bl _ _, ldc _ _ _ _ _ _ _ _ _, stc _ _ _ _ _ _ _ _ _,
    cdp _ _ _ _ _ _ _, mcr _ _ _ _ _ _ _, mrc _ _ _ _ _ _ _, swi _ _, tLslImm _ _ _, tLsrImm _ _ _, tAsrImm _ _ _,
    tAddReg _ _ _, tSubReg _ _ _, tAddImm3 _ _ _, tSubImm3 _ _ _, tMovImm _ _, tCmpImm _ _, tAddImm8 _ _,
    tSubImm8 _ _, tAnd _ _, tEor _ _, tLslReg _ _, tLsrReg _ _, tAsrReg _ _, tAdc _ _, tSbc _ _, tRor _ _, tTst _ _,
    tNeg _ _, tCmpReg _ _, tCmn _ _, tOrr _ _, tMul _ _, tBic _ _, tMvn _ _, tAddHi _ _ _ _, tCmpHi _ _ _ _,
    tMovHi _ _ _ _, tBx _ _ _ _, tLdrPc _ _, tStrReg _ _ _, tStrbReg _ _ _, tLdrReg _ _ _, tLdrbReg _ _ _,
    tStrhReg _ _ _, tLdsb _ _ _, tLdrhReg _ _ _, tLdsh _ _ _, tStrImm _ _ _, tLdrImm _ _ _, tStrbImm _ _ _,
    tLdrbImm _ _ _, tStrhImm _ _ _, tLdrhImm _ _ _, tStrSp _ _, tLdrSp _ _, tAddPc _ _, tAddSp _ _, tAddSpImm _ _,
    tPush _ _, tPop _ _, tStmia _ _, tLdmia _ _, tBCond _ _, tSwi _, tB _, tBlHi _, tBlLo _]

/-- A word that matches an ARM row decodes to that row's instruction (R150). -/
theorem decode_arm_of_matches {r : Row 32} (hr : r ∈ armRows) {w : BitVec 32} (hw : r.matches w = true) :
    decode (.arm w) = .ok (r.build w) := by
  simp only [decode, decodeArm, lookupRow_eq armRows_pairwise hr hw]

/-- A halfword that matches a Thumb row decodes to that row's instruction (R150). -/
theorem decode_thumb_of_matches {r : Row 16} (hr : r ∈ thumbRows) {h : BitVec 16} (hw : r.matches h = true) :
    decode (.thumb h) = .ok (r.build h) :=
  decode_thumb_eq_ok.mpr (lookupRow_eq thumbRows_pairwise hr hw)

/-- Settles O1: the word matches a row of its table, which is the row the decoder finds. -/
theorem encodedInstructionDecodes : Obligations.EncodedInstructionDecodes := by
  intro i wf
  have row := encoding_statement i wf
  cases hcode : encode i with
  | arm w =>
    rw [hcode] at row
    obtain ⟨k, r, hr, hw, rfl⟩ := row
    exact decode_arm_of_matches (List.mem_of_getElem? hr) hw
  | thumb h =>
    rw [hcode] at row
    obtain ⟨k, r, hr, hw, rfl⟩ := row
    exact decode_thumb_of_matches (List.mem_of_getElem? hr) hw

-- Encoding a decoded word

/-- Two fields of a word next to each other are one field. -/
theorem append_field {l m n k : Nat} {x : BitVec m} {y : BitVec n} {w : BitVec l} (hx : x = w.extractLsb' (k + n) m)
    (hy : y = w.extractLsb' k n) : x ++ y = w.extractLsb' k (m + n) := by
  subst hx hy
  ext i hi
  by_cases h : i < n
  · simp [BitVec.getElem_append, h]
  · simp [BitVec.getElem_append, h, Nat.add_assoc, Nat.add_sub_cancel' (not_lt.mp h)]

/-- A bit is the field of one bit. -/
theorem ofBool_getLsbD_eq_field {n : Nat} (w : BitVec n) (k : Nat) :
    BitVec.ofBool (w.getLsbD k) = w.extractLsb' k 1 := by
  ext i hi
  obtain rfl : i = 0 := by omega
  simp

/-- A field that a row's mask covers holds the bits of the row's pattern in every word of the row. -/
theorem pattern_field {n k l : Nat} {c : BitVec l} {r : Row n} {w : BitVec n} (h : r.matches w = true)
    (covered : r.mask.extractLsb' k l = BitVec.allOnes l) (hc : r.pattern.extractLsb' k l = c) :
    c = w.extractLsb' k l := by
  have pattern : w &&& r.mask = r.pattern := beq_iff_eq.mp h
  rw [← hc, ← pattern, BitVec.extractLsb'_and, covered, BitVec.and_allOnes]

/-- Every row of a list drops no bit of a word that matches it. -/
def RowsEncodeBack {n : Nat} (code : BitVec n → Code) (rows : List (Row n)) : Prop :=
  ∀ r ∈ rows, ∀ w : BitVec n, r.matches w = true → encode (r.build w) = code w

/-- A word is its field of all bits. -/
theorem code_of_fields {n : Nat} (code : BitVec n → Code) {v w : BitVec n} (h : v = w.extractLsb' 0 n) :
    code v = code w := by
  rw [h, BitVec.extractLsb'_eq_self]

/-- Every row of the tables drops no bit: the fields its instruction holds and the bits its mask fixes are the whole
word. -/
theorem rows_encodeBack : RowsEncodeBack .arm armRows ∧ RowsEncodeBack .thumb thumbRows := by
  simp only [RowsEncodeBack, armRows, armDataRows, armMiscRows, armHalfRows, armSingleRows, armSystemRows, thumbRows,
    thumbAluRows, thumbMemRows, thumbBranchRows, List.forall_mem_append, List.forall_mem_cons, List.not_mem_nil,
    false_implies, implies_true, and_true]
  and_intros
  all_goals
    intro w h
    simp only [encode, condAt, shiftAt, Cond.bits_ofBits, Shift.bits_ofBits, ofBool_getLsbD_eq_field]
    refine code_of_fields _ ?_
    repeat' refine append_field ?_ ?_
    any_goals rfl
    all_goals exact pattern_field h rfl rfl

/-- A lookup gives what a row that matches the word builds. -/
theorem exists_row_of_lookupRow {n : Nat} {rows : List (Row n)} {w : BitVec n} {i : Instr}
    (h : lookupRow rows w = some i) : ∃ r ∈ rows, r.matches w = true ∧ r.build w = i := by
  unfold lookupRow at h
  split at h
  next r hr => exact ⟨r, List.mem_of_find?_eq_some hr, (List.find?_some hr :), Option.some.inj h⟩
  next => cases h

/-- A word decodes to what its row in the table gives (R150). -/
theorem decode_arm_eq_ok {w : BitVec 32} {i : Instr} : decode (.arm w) = .ok i ↔ lookupRow armRows w = some i := by
  show decodeArm w = .ok i ↔ _
  unfold decodeArm
  split <;> simp [*]

/-- Settles O2: the row the decoder finds drops no bit. -/
theorem decodedWordEncodesBack : Obligations.DecodedWordEncodesBack := by
  intro code i h
  cases code with
  | arm w =>
    obtain ⟨r, hr, hw, rfl⟩ := exists_row_of_lookupRow (decode_arm_eq_ok.mp h)
    exact rows_encodeBack.1 r hr w hw
  | thumb w =>
    obtain ⟨r, hr, hw, rfl⟩ := exists_row_of_lookupRow (decode_thumb_eq_ok.mp h)
    exact rows_encodeBack.2 r hr w hw

-- One row per word

/-- In a list of rows of which no two match one word, two rows that match a word are one (R150). -/
theorem row_unique {n : Nat} {rows : List (Row n)}
    (hp : rows.Pairwise (fun r q => (r.pattern ^^^ q.pattern) &&& r.mask &&& q.mask ≠ 0)) {r q : Row n} (hr : r ∈ rows)
    (hq : q ∈ rows) {w : BitVec n} (hrw : r.matches w = true) (hqw : q.matches w = true) : r = q := by
  by_contra distinct
  have symmetric : Std.Symm fun r q : Row n => (r.pattern ^^^ q.pattern) &&& r.mask &&& q.mask ≠ 0 :=
    ⟨fun r q h => by rwa [BitVec.xor_comm, BitVec.and_assoc, BitVec.and_comm q.mask, ← BitVec.and_assoc]⟩
  have apart : (r.pattern ^^^ q.pattern) &&& r.mask &&& q.mask ≠ 0 := hp.forall hr hq distinct
  exact absurd hqw (by simp [Row.disjoint apart w hrw])

/-- A word that matches no row is looked up in vain. -/
theorem lookupRow_eq_none_iff {n : Nat} {rows : List (Row n)} {w : BitVec n} :
    lookupRow rows w = none ↔ ∀ r ∈ rows, r.matches w = false := by
  unfold lookupRow
  split <;> simp_all [List.find?_eq_none]
  next r hr => exact ⟨r, List.mem_of_find?_eq_some hr, (List.find?_some hr :)⟩

/-- The decoder rejects exactly the words of no ARM row (R150). -/
theorem decode_arm_eq_error {w : BitVec 32} :
    decode (.arm w) = .error (.unallocatedArm w) ↔ ∀ r ∈ armRows, r.matches w = false := by
  rw [← lookupRow_eq_none_iff]
  show decodeArm w = _ ↔ _
  unfold decodeArm
  split <;> simp [*]

/-- The decoder rejects exactly the halfwords of no Thumb row (R150). -/
theorem decode_thumb_eq_error {h : BitVec 16} :
    decode (.thumb h) = .error (.unallocatedThumb h) ↔ ∀ r ∈ thumbRows, r.matches h = false := by
  rw [← lookupRow_eq_none_iff]
  show decodeThumb h = _ ↔ _
  unfold decodeThumb
  split <;> simp [*]

/-- Settles O3: the rows of each table are apart pairwise. -/
theorem oneRowPerWord : Obligations.OneRowPerWord :=
  ⟨fun _ _ hr _ hq => row_unique armRows_pairwise hr hq, fun _ _ hr _ hq => row_unique thumbRows_pairwise hr hq,
    fun _ _ hr hw => decode_arm_of_matches hr hw, fun _ _ hr hw => decode_thumb_of_matches hr hw,
    fun _ => decode_arm_eq_error.mpr, fun _ => decode_thumb_eq_error.mpr⟩

-- Lists of rows that every word matches

/-- A row may match a word whose bit k is b. -/
def rowAllows {n : Nat} (k : Nat) (b : Bool) (r : Row n) : Bool := !r.mask.getLsbD k || r.pattern.getLsbD k == b

/-- Every word matches a row of the list, as splitting on the bits of `ks` in turn shows: a branch is done when a row left
over asks for none of the bits to come. -/
def covers {n : Nat} : List Nat → List (Row n) → Bool
  | [], rows => !rows.isEmpty
  | k :: ks, rows =>
    (rows.any fun r => (k :: ks).all fun j => !r.mask.getLsbD j) ||
      (covers ks (rows.filter (rowAllows k false)) && covers ks (rows.filter (rowAllows k true)))

/-- A word has the bits of a row that are not in `ks`. -/
def RowAgreesOff {n : Nat} (ks : List Nat) (w : BitVec n) (r : Row n) : Prop :=
  ∀ k ∉ ks, r.mask.getLsbD k = true → r.pattern.getLsbD k = w.getLsbD k

theorem rowAgreesOff_of_allows {n k : Nat} {ks : List Nat} {w : BitVec n} {r : Row n} (h : RowAgreesOff (k :: ks) w r)
    (hk : rowAllows k (w.getLsbD k) r = true) : RowAgreesOff ks w r := by
  intro j hj asked
  by_cases same : j = k
  · subst same
    simpa [rowAllows, asked] using hk
  · exact h j (by simp [same, hj]) asked

/-- A covering list has a row that agrees with the word on every bit it asks for. -/
theorem exists_agreesOff_of_covers {n : Nat} (w : BitVec n) {ks : List Nat} {rows : List (Row n)} (h : covers ks rows = true)
    (agree : ∀ r ∈ rows, RowAgreesOff ks w r) : ∃ r ∈ rows, RowAgreesOff [] w r := by
  induction ks generalizing rows with
  | nil =>
    obtain ⟨r, hr⟩ := List.exists_mem_of_ne_nil rows (by simpa [covers] using h)
    exact ⟨r, hr, agree r hr⟩
  | cons k ks ih =>
    rcases Bool.or_eq_true _ _ ▸ h with done | split
    · obtain ⟨r, hr, free⟩ := List.any_eq_true.mp done
      refine ⟨r, hr, fun j _ asked => agree r hr j (fun hj => ?_) asked⟩
      simpa [asked] using List.all_eq_true.mp free j hj
    · obtain ⟨zero, one⟩ := Bool.and_eq_true _ _ ▸ split
      have branch : covers ks (rows.filter (rowAllows k (w.getLsbD k))) = true := by
        cases w.getLsbD k
        · exact zero
        · exact one
      obtain ⟨r, hr, all⟩ := ih branch fun r hr =>
        rowAgreesOff_of_allows (agree r (List.mem_filter.mp hr).1) (List.mem_filter.mp hr).2
      exact ⟨r, (List.mem_filter.mp hr).1, all⟩

/-- Every word matches a row of a covering list whose patterns lie in their masks. -/
theorem exists_matches_of_covers {n : Nat} {ks : List Nat} {rows : List (Row n)} (h : covers ks rows = true)
    (all : ∀ k < n, k ∈ ks) (within : ∀ r ∈ rows, r.pattern &&& r.mask = r.pattern) (w : BitVec n) :
    ∃ r ∈ rows, r.matches w = true := by
  obtain ⟨r, hr, agree⟩ := exists_agreesOff_of_covers w h fun r _ k hk asked =>
    absurd (all k (BitVec.lt_of_getLsbD asked)) hk
  refine ⟨r, hr, beq_iff_eq.mpr (BitVec.eq_of_getLsbD_eq fun k _ => ?_)⟩
  rw [← within r hr, BitVec.getLsbD_and, BitVec.getLsbD_and]
  cases asked : r.mask.getLsbD k
  · simp
  · rw [agree k (by simp) asked]

-- The unallocated spaces

/-- A row of no instruction, for words that no row of the tables matches: what it builds is not read. -/
def hole {n : Nat} (mask pattern : BitVec n) : Row n := ⟨mask, pattern, fun _ => .tSwi 0⟩

/-- The unallocated spaces of the Thumb halfwords (R171). -/
def thumbHoles : List (Row 16) :=
  [hole 0xFF00 0xB100, hole 0xFE00 0xB200, hole 0xFE00 0xB600, hole 0xFC00 0xB800, hole 0xFF00 0xBB00,
   hole 0xFE00 0xBE00, hole 0xFF00 0xDE00, hole 0xF800 0xE800]

/-- The unallocated spaces of the ARM words (R170 (b) to (e)). -/
def armHoles : List (Row 32) :=
  [hole 0x0F900090 0x01000080, hole 0x0FD00090 0x01400010, hole 0x0FF00090 0x01000010, hole 0x0F9000D0 0x01000050,
   hole 0x0F9000B0 0x01000030, hole 0x0FB00000 0x03000000, hole 0x0FC000F0 0x00400090, hole 0x0F8000F0 0x01800090,
   hole 0x0FA000F0 0x01200090, hole 0x0F9000F0 0x01100090, hole 0x0E1000D0 0x000000D0]

/-- The bits of an ARM word, those that most rows ask for first. -/
def armBits : List Nat :=
  [27, 26, 25, 24, 23, 22, 21, 20, 7, 6, 5, 4, 15, 31, 30, 29, 28, 19, 18, 17, 16, 14, 13, 12, 11, 10, 9, 8, 3, 2, 1, 0]

theorem thumb_covers : covers (List.range 16).reverse (thumbRows ++ thumbHoles) = true := by decide +kernel

theorem arm_covers : covers armBits (armRows ++ armHoles) = true := by decide +kernel

/-- The words of no row are those of the holes, where these are apart from the rows and cover the rest. -/
theorem matches_none_iff {n : Nat} {rows holes : List (Row n)} {ks : List Nat} (cover : covers ks (rows ++ holes) = true)
    (all : ∀ k < n, k ∈ ks) (within : ∀ r ∈ rows ++ holes, r.pattern &&& r.mask = r.pattern)
    (apart : ∀ r ∈ holes, ∀ q ∈ rows, (r.pattern ^^^ q.pattern) &&& r.mask &&& q.mask ≠ 0) (w : BitVec n) :
    (∀ r ∈ rows, r.matches w = false) ↔ ∃ r ∈ holes, r.matches w = true := by
  constructor
  · intro unmatched
    obtain ⟨r, hr, hw⟩ := exists_matches_of_covers cover all within w
    rcases List.mem_append.mp hr with row | empty
    · exact absurd hw (by simp [unmatched r row])
    · exact ⟨r, empty, hw⟩
  · rintro ⟨r, hr, hw⟩ q hq
    exact Row.disjoint (apart r hr q hq) w hw

/-- A word matches a mask and a pattern bit by bit. -/
theorem hole_matches_iff {n : Nat} (m p w : BitVec n) :
    (hole m p).matches w = true ↔ ∀ k : Fin n, (w.getLsbD k && m.getLsbD k) = p.getLsbD k := by
  rw [Row.matches, beq_iff_eq]
  constructor
  · rintro h k
    rw [← BitVec.getLsbD_and]
    exact congrArg (BitVec.getLsbD · k) h
  · intro h
    exact BitVec.eq_of_getLsbD_eq fun k hk => by rw [BitVec.getLsbD_and]; exact h ⟨k, hk⟩

/-- A field has a value bit by bit. -/
theorem field_eq_iff {n l : Nat} (w : BitVec n) (k : Nat) (c : BitVec l) :
    w.extractLsb' k l = c ↔ ∀ i : Fin l, w.getLsbD (k + i) = c.getLsbD i := by
  constructor
  · rintro rfl i
    simp
  · intro h
    exact BitVec.eq_of_getLsbD_eq fun i hi => by simpa [hi] using h ⟨i, hi⟩

/-- Settles O4: the words of no row are those of the holes, which are the spaces of R170 and R171 bit by bit. -/
theorem unallocatedEncodings : Obligations.UnallocatedEncodings := by
  refine ⟨fun h => ?thumb, fun w => ?arm⟩
  case thumb =>
    rw [decode_thumb_eq_error,
      matches_none_iff thumb_covers (by decide) (by decide +kernel) (by decide +kernel) h]
    simp (decide := true) [thumbHoles, hole_matches_iff, field_eq_iff, Fin.forall_fin_succ]
    grind (splits := 40)
  case arm =>
    rw [decode_arm_eq_error, matches_none_iff arm_covers (by decide) (by decide +kernel) (by decide +kernel) w]
    simp (decide := true) [armHoles, hole_matches_iff, field_eq_iff, Fin.forall_fin_succ]
    grind (splits := 40)

/-- Settles O5: each word is decoded by the tables. -/
theorem specWordsDecode : Obligations.SpecWordsDecode := by
  unfold Obligations.SpecWordsDecode
  decide +kernel

end Sys2Proof.Machine

/-!
PROOFS. What an instruction leaves unchanged (spec/10_state.md, spec/20_memory.md section 5): every operation of the model
stays within a footprint of registers, cells and status, and every instruction is a chain of such operations.
-/

namespace Sys2Proof.Machine

-- Footprints

/-- What an instruction may change: general registers, cells of memory, and the status it does not keep. -/
structure Footprint where
  regs : List (Fin 30)
  cells : List Nat
  keepsCpsr : Bool
  keepsControl : Bool
  keepsSaved : Bool

/-- A cell of the I/O region (R88). -/
def InIo (n : Nat) : Prop := 0x04000000 ≤ n ∧ n < 0x04000400

/-- The part of the invariant that speaks of memory and devices. -/
def Stored (s : State) : Prop := s.mem.wf ∧ CellsStored s.mem ∧ FifosBounded s.dev ∧ DmaSound s.dev

/-- What no instruction that runs on in User mode changes (R531). -/
structure UserKept (s t : State) : Prop where
  mode : t.cpsr.mode = s.cpsr.mode
  masks : t.cpsr.i = s.cpsr.i ∧ t.cpsr.f = s.cpsr.f
  spsr : t.spsr = s.spsr
  gpr : ∀ k : Fin 30, 15 ≤ k.val → t.gpr[k] = s.gpr[k]

theorem UserKept.refl (s : State) : UserKept s s := ⟨rfl, ⟨rfl, rfl⟩, rfl, fun _ _ => rfl⟩

theorem UserKept.trans {s t u : State} (h : UserKept s t) (k : UserKept t u) : UserKept s u :=
  ⟨k.mode.trans h.mode, ⟨k.masks.1.trans h.masks.1, k.masks.2.trans h.masks.2⟩, k.spsr.trans h.spsr,
    fun n hn => (k.gpr n hn).trans (h.gpr n hn)⟩

/-- From one state to another nothing changes but what a footprint allows, and from User mode no mode, mask, saved
status or banked register (R531). -/
structure Within (f : Footprint) (s t : State) : Prop where
  gpr : ∀ k : Fin 30, k ∉ f.regs → t.gpr[k] = s.gpr[k]
  mem : ∀ n, n ∉ f.cells → t.mem.read n = s.mem.read n
  dev : (∀ n ∈ f.cells, ¬InIo n) → t.dev = s.dev
  stored : Stored s → Stored t
  cpsr : f.keepsCpsr = true → t.cpsr = s.cpsr
  control : f.keepsControl = true →
    t.cpsr.mode = s.cpsr.mode ∧ t.cpsr.i = s.cpsr.i ∧ t.cpsr.f = s.cpsr.f ∧ t.cpsr.t = s.cpsr.t
  saved : f.keepsSaved = true → t.spsr = s.spsr
  user : s.cpsr.mode = .usr → UserKept s t
  fixed : t.params = s.params ∧ t.iteration = s.iteration ∧ t.dmaResume = s.dmaResume

section
variable {f : Footprint} {s t u : State}

theorem Within.trans (h : Within f s t) (k : Within f t u) : Within f s u where
  gpr n hn := (k.gpr n hn).trans (h.gpr n hn)
  mem n hn := (k.mem n hn).trans (h.mem n hn)
  dev io := (k.dev io).trans (h.dev io)
  stored := k.stored ∘ h.stored
  cpsr hc := (k.cpsr hc).trans (h.cpsr hc)
  control hc := by
    obtain ⟨mode, i, f, t⟩ := h.control hc
    obtain ⟨mode', i', f', t'⟩ := k.control hc
    exact ⟨mode'.trans mode, i'.trans i, f'.trans f, t'.trans t⟩
  saved hc := (k.saved hc).trans (h.saved hc)
  user hu := (h.user hu).trans (k.user ((h.user hu).mode.trans hu))
  fixed := by
    obtain ⟨params, iteration, resume⟩ := h.fixed
    obtain ⟨params', iteration', resume'⟩ := k.fixed
    exact ⟨params'.trans params, iteration'.trans iteration, resume'.trans resume⟩

/-- A change of the pc, of the free values taken and of the mark of R611 is within every footprint. -/
theorem within_pc (f : Footprint) (s : State) (pc : Word) (draws : Nat) (mark : Bool) :
    Within f s { s with pc := pc, draws := draws, lastUsrBank := mark } :=
  ⟨fun _ _ => rfl, fun _ _ => rfl, fun _ => rfl, id, fun _ => rfl, fun _ => ⟨rfl, rfl, rfl, rfl⟩, fun _ => rfl,
    fun _ => ⟨rfl, ⟨rfl, rfl⟩, rfl, fun _ _ => rfl⟩, rfl, rfl, rfl⟩

theorem within_setPc (f : Footprint) (s : State) (pc : Word) : Within f s (s.setPc pc) := within_pc f s pc _ _

theorem within_begun (f : Footprint) (s : State) : Within f s s.begun := within_pc f s _ _ false

theorem within_draws (f : Footprint) (s : State) (d : Nat) : Within f s { s with draws := d } := within_pc f s _ d _

/-- The registers that User mode sees are those of the User column (R33). -/
theorem physReg_usr_lt : ∀ i : Reg, i ≠ 15 → (physReg .usr i).val < 15 := by decide

/-- A register write is within a footprint that has the register; in User mode it is one of the User column (R33). -/
theorem within_setRegOf {m : Mode} {i : Reg} (hi : i ≠ 15) (hm : physReg m i ∈ f.regs) (s : State)
    (own : s.cpsr.mode = .usr → m = .usr) (v : Word) : Within f s (s.setRegOf m i v) := by
  rw [State.setRegOf_reg hi]
  have others (k : Fin 30) (hk : (physReg m i).val ≠ k.val) : (s.gpr.set (physReg m i) v)[k] = s.gpr[k] :=
    Vector.getElem_set_ne (physReg m i).isLt k.isLt hk
  refine ⟨fun k hk => others k fun e => hk (Fin.ext e ▸ hm), fun _ _ => rfl, fun _ => rfl, id, fun _ => rfl,
    fun _ => ⟨rfl, rfl, rfl, rfl⟩, fun _ => rfl, fun hu => ⟨rfl, ⟨rfl, rfl⟩, rfl, fun k hk => others k ?_⟩, rfl, rfl, rfl⟩
  have low : (physReg m i).val < 15 := own hu ▸ physReg_usr_lt i hi
  omega

/-- A change of flags is within a footprint that does not keep the CPSR. -/
theorem within_flags (hf : f.keepsCpsr = false) (s : State) (n z c v : Bool) (d : Nat) :
    Within f s { s with cpsr := { s.cpsr with n := n, z := z, c := c, v := v }, draws := d } :=
  ⟨fun _ _ => rfl, fun _ _ => rfl, fun _ => rfl, id, fun h => by simp [hf] at h, fun _ => ⟨rfl, rfl, rfl, rfl⟩,
    fun _ => rfl, fun _ => ⟨rfl, ⟨rfl, rfl⟩, rfl, fun _ _ => rfl⟩, rfl, rfl, rfl⟩

/-- A change of the CPSR is within a footprint that keeps nothing of it, outside User mode or of no mode and mask. -/
theorem within_setCpsr (hf : f.keepsCpsr = false) (hc : f.keepsControl = false) (s : State) {p : Cpsr}
    (user : s.cpsr.mode = .usr → p.mode = .usr ∧ p.i = s.cpsr.i ∧ p.f = s.cpsr.f) : Within f s (s.setCpsr p) :=
  ⟨fun _ _ => rfl, fun _ _ => rfl, fun _ => rfl, id, fun h => by simp [hf] at h, fun h => by simp [hc] at h,
    fun _ => rfl, fun hu => by obtain ⟨mode, masks⟩ := user hu; exact ⟨mode.trans hu.symm, masks, rfl, fun _ _ => rfl⟩,
    rfl, rfl, rfl⟩

/-- A write of the SPSR of the mode is within a footprint that keeps no saved status: User mode has none (R56). -/
theorem within_setSpsr (hf : f.keepsSaved = false) (s : State) (p : Psr) : Within f s (s.setSpsr s.cpsr.mode p) :=
  ⟨fun _ _ => by simp, fun _ _ => by simp, fun _ => by simp, fun h => by simpa [Stored] using h, fun _ => by simp,
    fun _ => by simp, fun h => by simp [hf] at h,
    fun hu => by rw [hu, State.setSpsr_of_none rfl]; exact .refl s, by simp⟩

-- Stores

/-- A byte written outside the I/O region leaves the devices. -/
theorem writeByte_dev {a : Word} {s : State} (h : region s.bus a ≠ .io) (b : Byte) : (writeByte a b s).dev = s.dev := by
  unfold writeByte
  cases hr : region s.bus a with
  | io => exact absurd hr h
  | _ => rfl

/-- An address whose cell is not one of the I/O region is not of that region (R88). -/
theorem region_ne_io {bus : Bus} {a : Word} (h : ¬InIo (cell bus a)) : region bus a ≠ .io := by
  intro io
  have below : regionOffset bus a < 0x400 := regionOffset_io io
  rw [cell_io io] at h
  exact h ⟨by unfold ioCell; omega, by unfold ioCell; omega⟩

/-- A byte written to the cells of a footprint is within it. -/
theorem within_writeByte {a : Word} {s : State} (h : cell s.bus a ∈ f.cells) (b : Byte) : Within f s (writeByte a b s) :=
  ⟨fun _ _ => by simp, fun n hn => writeByte_read (fun e : n = cell s.bus a => hn (e ▸ h)) b,
    fun io => writeByte_dev (region_ne_io (io _ h)) b,
    fun ⟨wf, cells, fifos, dma⟩ => ⟨writeByte_wf a b s wf, writeByte_cells a b s cells, writeByte_fifos a b s fifos,
      writeByte_dma a b s dma⟩,
    fun _ => by simp, fun _ => by simp, fun _ => by simp, fun _ => ⟨by simp, by simp, by simp, by simp⟩, by simp⟩

/-- A bus write whose cells are in a footprint is within it. -/
theorem within_busWrite {a : Word} {w : Width} {s : State} (h : ∀ n ∈ storedCells a w s, n ∈ f.cells) (v : Word) :
    Within f s (busWrite a w v s) := by
  have next {s t : State} (hw : Within f s t) {a : Word} (ha : cell s.bus a ∈ f.cells) (b : Byte) :
      Within f s (writeByte a b t) := hw.trans (within_writeByte (by rw [State.bus, hw.fixed.1]; exact ha) b)
  unfold storedCells at h
  unfold busWrite
  dsimp only
  cases w with
  | byte =>
    cases hw : byteWriteAt a s with
    | single => exact within_writeByte (h _ (by simp [hw])) _
    | both => exact next (within_writeByte (h _ (by simp [hw])) _) (h _ (by simp [hw])) _
    | ignored => exact within_draws f s s.draws
  | half => exact next (within_writeByte (h _ (by simp)) _) (h _ (by simp)) _
  | word =>
    exact next (next (next (within_writeByte (h _ (by simp)) _) (h _ (by simp)) _) (h _ (by simp)) _) (h _ (by simp)) _

theorem within_cpuWrite {a : Word} {w : Width} {v : Word} (ok : cpuWrite a w v s = .ok t)
    (h : ∀ n ∈ storedCells a w s, n ∈ f.cells) : Within f s t := cpuWrite_ok ok ▸ within_busWrite h v

/-- A store leaves the pc and the CPSR. -/
theorem cpuWrite_keeps {a : Word} {w : Width} {v : Word} (ok : cpuWrite a w v s = .ok t) :
    t.pc = s.pc ∧ t.cpsr = s.cpsr := by
  rw [cpuWrite_ok ok]
  exact ⟨busWrite_pc .., busWrite_cpsr ..⟩

/-- A block of stores is within a footprint that has its cells, and leaves the pc and the CPSR. -/
theorem within_storeList {a : Word} {vs : List Word} (ok : storeList a vs s = .ok t)
    (h : ∀ n ∈ blockCells s.bus a vs.length, n ∈ f.cells) : Within f s t ∧ t.pc = s.pc ∧ t.cpsr = s.cpsr := by
  induction vs generalizing a s with
  | nil => cases ok; exact ⟨within_draws f t t.draws, rfl, rfl⟩
  | cons v vs ih =>
    unfold storeList at ok
    split at ok
    next => cases ok
    next u hu =>
      have first : Within f s u := within_cpuWrite hu fun n hn => h n (List.mem_append_left _ hn)
      obtain ⟨pc, cpsr⟩ := cpuWrite_keeps hu
      have bus : u.bus = s.bus := congrArg Params.bus first.fixed.1
      obtain ⟨rest, pc', cpsr'⟩ := ih ok fun n hn => h n (List.mem_append_right _ (bus ▸ hn))
      exact ⟨first.trans rest, pc'.trans pc, cpsr'.trans cpsr⟩

end

-- How an instruction ends

/-- How an instruction of an instruction set ends: within its footprint, at a pc that is aligned where the instruction's
was; or by an exception of R502 or R504, which its footprint allows. -/
inductive Ends (thumb : Bool) (f : Footprint) (s t : State) : Prop
  | ordinary (within : Within f s t) (lands : PcAligned s → s.cpsr.t = thumb → PcAligned t)
  | raised (e : Exc) (he : e = .undefined ∨ e = .softwareInterrupt)
      (link : t = takeExceptionWithLink e (s.pc + (if thumb then 2 else 4)) s.begun) (regs : physReg e.mode regLR ∈ f.regs)
      (status : f.keepsCpsr = false ∧ f.keepsControl = false ∧ f.keepsSaved = false)

-- Alignment

theorem align4_eq_iff (a : Word) : align4 a = a ↔ a.toNat % 4 = 0 := by
  have value : (align4 a).toNat = a.toNat / 4 * 4 := Width.align_toNat .word a
  rw [← BitVec.toNat_inj, value]
  omega

theorem align2_eq_iff (a : Word) : align2 a = a ↔ a.toNat % 2 = 0 := by
  have value : (align2 a).toNat = a.toNat / 2 * 2 := Width.align_toNat .half a
  rw [← BitVec.toNat_inj, value]
  omega

theorem align4_align4 (a : Word) : align4 (align4 a) = align4 a := by
  have value : (align4 a).toNat = a.toNat / 4 * 4 := Width.align_toNat .word a
  rw [align4_eq_iff, value, Nat.mul_mod_left]

theorem align2_align2 (a : Word) : align2 (align2 a) = align2 a := by
  have value : (align2 a).toNat = a.toNat / 2 * 2 := Width.align_toNat .half a
  rw [align2_eq_iff, value, Nat.mul_mod_left]

theorem alignFor_alignFor (t : Bool) (a : Word) : alignFor t (alignFor t a) = alignFor t a := by
  cases t
  · exact align4_align4 a
  · exact align2_align2 a

/-- A word-aligned address and a multiple of 4 make a word-aligned one. -/
theorem align4_add {a b : Word} (ha : align4 a = a) (hb : b.toNat % 4 = 0) : align4 (a + b) = a + b := by
  rw [align4_eq_iff] at ha ⊢
  rw [BitVec.toNat_add]
  omega

theorem align2_add {a b : Word} (ha : align2 a = a) (hb : b.toNat % 2 = 0) : align2 (a + b) = a + b := by
  rw [align2_eq_iff] at ha ⊢
  rw [BitVec.toNat_add]
  omega

/-- An offset shifted left by at least k bits is a multiple of 2^k. -/
theorem shiftLeft_mod (a : Word) {k : Nat} (hk : k ≤ 32) : (a <<< k).toNat % 2 ^ k = 0 := by
  rw [BitVec.toNat_shiftLeft, Nat.shiftLeft_eq, Nat.mod_mod_of_dvd _ (Nat.pow_dvd_pow 2 hk), Nat.mul_mod_left]

section
variable {f : Footprint} {s t u : State}

-- Ways to end

theorem Ends.nextArm (h : Within f s u) (pc : u.pc = s.pc) (t : u.cpsr.t = s.cpsr.t) : Ends false f s u.nextArm := by
  refine .ordinary (h.trans (within_setPc f u _)) fun aligned arm => ?_
  unfold PcAligned at aligned ⊢
  rw [State.nextArm_pc, State.nextArm_cpsr, pc, t]
  rw [arm] at aligned ⊢
  exact align4_add aligned (by decide)

theorem Ends.nextThumb (h : Within f s u) (pc : u.pc = s.pc) (t : u.cpsr.t = s.cpsr.t) : Ends true f s u.nextThumb := by
  refine .ordinary (h.trans (within_setPc f u _)) fun aligned arm => ?_
  unfold PcAligned at aligned ⊢
  rw [State.nextThumb_pc, State.nextThumb_cpsr, pc, t]
  rw [arm] at aligned ⊢
  exact align2_add aligned (by decide)

theorem Ends.jump {thumb : Bool} {v : Word} (h : Within f s u)
    (aligned : PcAligned s → s.cpsr.t = thumb → alignFor u.cpsr.t v = v) : Ends thumb f s (u.setPc v) :=
  .ordinary (h.trans (within_setPc f u v)) aligned

/-- What ends from the begun step ends from the state before it. -/
theorem Ends.of_begun {thumb : Bool} (h : Ends thumb f s.begun t) : Ends thumb f s t := by
  cases h with
  | ordinary within lands => exact .ordinary ((within_begun f s).trans within) lands
  | raised e he link regs status => exact .raised e he link regs status

/-- An ARM instruction ends as its effect does, or only advances the pc (R200). -/
theorem Ends.armGate {c : Cond} {sb : Bool} {regs : List Reg} {body : State → Outcome}
    (h : armGate c sb regs s body = .next t) (hb : body s.begun = .next t → Ends false f s.begun t) : Ends false f s t := by
  rcases armGate_next h with rfl | ⟨_, effect⟩
  · exact .nextArm (within_begun f s) rfl rfl
  · exact (hb effect).of_begun

theorem Ends.thumbGate {regs : List Reg} {body : State → Outcome} (h : thumbGate regs s body = .next t)
    (hb : body s.begun = .next t → Ends true f s.begun t) : Ends true f s t := (hb (thumbGate_next h)).of_begun

end

-- Registers an instruction names

theorem physReg_mem_named {m : Mode} {i : Reg} {regs : List Reg} (hi : i ≠ 15) (h : i ∈ regs) :
    physReg m i ∈ named m regs := List.mem_map_of_mem (List.mem_filter.mpr ⟨h, by simpa using hi⟩)

section
variable {f : Footprint} {s t : State}

/-- A write of a register that the footprint names in the mode. -/
theorem within_setX {i : Reg} {regs : List Reg} (hf : f.regs = named s.cpsr.mode regs) (hi : i ≠ 15) (h : i ∈ regs) (v : Word) :
    Within f s (s.setX i v) := within_setRegOf hi (hf ▸ physReg_mem_named hi h) s id v

end

-- Data processing

/-- What a data-processing instruction may change (R213). -/
def dpFootprint (op : DpOp) (sf : Bool) (rd : Reg) (s : State) : Footprint where
  regs := if op.writesRd then named s.cpsr.mode [rd] else []
  cells := []
  keepsCpsr := op.writesRd && !sf
  keepsControl := !(op.writesRd && sf && rd == 15)
  keepsSaved := true

/-- An exception return changes the CPSR from outside User mode and aligns the pc (R511). -/
theorem ends_returnFromException {f : Footprint} {s t u : State} {k : Unpredictable} {v : Word} {thumb : Bool}
    (h : returnFromException k v u = .ok t) (hu : Within f s u)
    (hf : f.keepsCpsr = false) (hc : f.keepsControl = false) : Ends thumb f s t := by
  unfold returnFromException restoreCpsr at h
  split at h
  · cases h
  · next r hr =>
    split at hr
    · cases hr
    · next p hp =>
      split at hr
      · cases hr
      · next c hc' =>
        cases hr
        cases h
        have own : u.cpsr.mode ≠ .usr := fun e => by rw [e] at hp; cases hp
        exact .jump (hu.trans (within_setCpsr hf hc u fun e => absurd e own)) fun _ _ => alignFor_alignFor _ _

theorem ends_dpFinish {op : DpOp} {sf : Bool} {rd : Reg} {n : Word} {op2 : Shifted} {s t : State}
    (h : dpFinish op sf rd n op2 s = .next t) : Ends false (dpFootprint op sf rd s) s t := by
  unfold dpFinish at h
  dsimp only at h
  by_cases hw : op.writesRd = true
  · rw [if_pos hw] at h
    have regs : (dpFootprint op sf rd s).regs = named s.cpsr.mode [rd] := if_pos hw
    by_cases hd : rd = 15
    · rw [if_pos hd] at h
      cases sf with
      | true =>
        obtain ⟨u, hu, ret⟩ := orFault_next h
        cases unpredIf_next ret
        exact ends_returnFromException hu (within_draws _ s s.draws) (by simp [dpFootprint, hw])
          (by simp [dpFootprint, hw, hd])
      | false =>
        cases unpredIf_next h
        exact .jump (within_draws _ s s.draws) fun _ (arm : s.cpsr.t = false) => by rw [arm]; exact align4_align4 _
    · rw [if_neg hd] at h
      have write := within_setX (s := s) regs hd (by simp) (op.apply n op2 s.cpsr).value
      cases h
      cases sf with
      | true =>
        exact .nextArm (write.trans (within_flags (by simp [dpFootprint, hw]) _ _ _ _ _ _)) (State.setX_pc hd _ _)
          (by simp)
      | false => exact .nextArm write (State.setX_pc hd _ _) (by simp)
  · rw [if_neg hw] at h
    cases h
    exact .nextArm (within_flags (by simp [dpFootprint, hw]) s _ _ _ _ s.draws) rfl rfl

section
variable {op : DpOp} {c : Cond} {sb sf : Bool} {rn rd rs rm : Reg} {s t : State}

theorem ends_dpImm {rot : BitVec 4} {imm8 : BitVec 8} (h : dpImm op c sb sf rn rd rot imm8 s = .next t) :
    Ends false (dpFootprint op sf rd s) s t := .armGate h ends_dpFinish

theorem ends_dpRsi {amt : BitVec 5} {sh : Shift} (h : dpRsi op c sb sf rn rd amt sh rm s = .next t) :
    Ends false (dpFootprint op sf rd s) s t := .armGate h ends_dpFinish

theorem ends_dpRsr {sh : Shift} (h : dpRsr op c sb sf rn rd rs sh rm s = .next t) :
    Ends false (dpFootprint op sf rd s) s t :=
  .armGate h fun h => ends_dpFinish (unpredIf_next (stopIf_next h).2)

end

-- Multiplies, status registers, swaps and branches

/-- What an instruction may change that stores nothing and writes no mode, mask or saved status: registers of the
mode and, with `keeps` false, the flags. -/
def aluFootprint (m : Mode) (regs : List Reg) (keeps : Bool) : Footprint := ⟨named m regs, [], keeps, true, true⟩

section
variable {c : Cond} {sb sf : Bool} {rn rd rs rm : Reg} {s t : State}

theorem ends_mulFinish {v : Word} (hd : rd ≠ 15) (h : mulFinish sf rd v s = .next t) :
    Ends false (aluFootprint s.cpsr.mode [rd] !sf) s t := by
  have write := within_setX (f := aluFootprint s.cpsr.mode [rd] !sf) (s := s) rfl hd (by simp) v
  cases h
  cases sf with
  | true => exact .nextArm (write.trans (within_flags rfl _ _ _ _ _ _)) (State.setX_pc hd _ _) (by simp)
  | false => exact .nextArm write (State.setX_pc hd _ _) (by simp)

theorem ends_mul {sbz : BitVec 4} (h : execMul c sf rd sbz rs rm s = .next t) :
    Ends false (aluFootprint s.cpsr.mode [rd] !sf) s t :=
  .armGate h fun h => by
    obtain ⟨noPc, h⟩ := stopIf_next h
    exact ends_mulFinish (by rintro rfl; simp at noPc) (stopIf_next h).2

theorem ends_mla (h : execMla c sf rd rn rs rm s = .next t) : Ends false (aluFootprint s.cpsr.mode [rd] !sf) s t :=
  .armGate h fun h => by
    obtain ⟨noPc, h⟩ := stopIf_next h
    exact ends_mulFinish (by rintro rfl; simp at noPc) (stopIf_next h).2

theorem ends_mullExec {signed acc : Bool} {rdHi rdLo : Reg} (h : mullExec signed acc c sf rdHi rdLo rs rm s = .next t) :
    Ends false (aluFootprint s.cpsr.mode [rdHi, rdLo] !sf) s t :=
  .armGate h fun h => by
    obtain ⟨ok, h⟩ := stopIf_next h
    have hi : rdHi ≠ 15 := by rintro rfl; simp [mullRegsCase] at ok
    have lo : rdLo ≠ 15 := by rintro rfl; simp [mullRegsCase] at ok
    have write (v w : Word) : Within (aluFootprint s.cpsr.mode [rdHi, rdLo] !sf) s.begun
        ((s.begun.setX rdHi v).setX rdLo w) :=
      (within_setX rfl hi (by simp) v).trans (within_setX (regs := [rdHi, rdLo]) (by simp [aluFootprint]) lo (by simp) w)
    have pc (v w : Word) : ((s.begun.setX rdHi v).setX rdLo w).pc = s.begun.pc := by
      rw [State.setX_pc lo, State.setX_pc hi]
    cases h
    cases sf with
    | true => exact .nextArm ((write _ _).trans (within_flags rfl _ _ _ _ _ _)) (pc _ _) (by simp)
    | false => exact .nextArm (write _ _) (pc _ _) (by simp)

theorem ends_mrs {r : Bool} {sbo sbzA sbzC : BitVec 4} {sbzB : BitVec 2}
    (h : execMrs c r sbo rd sbzA sbzB sbzC s = .next t) : Ends false (aluFootprint s.cpsr.mode [rd] true) s t :=
  .armGate h fun h => by
    obtain ⟨noPc, h⟩ := stopIf_next h
    have hd : rd ≠ 15 := by simpa using noPc
    have write (v : Word) : Ends false (aluFootprint s.cpsr.mode [rd] true) s.begun (s.begun.setX rd v).nextArm :=
      .nextArm (within_setX rfl hd (by simp) v) (State.setX_pc hd _ _) (by simp)
    cases r with
    | true =>
      simp only [if_true] at h
      split at h
      · cases h
      · cases h; exact write _
    | false => cases h; exact write _

/-- What an MSR may change (R281). -/
def msrFootprint (r : Bool) : Footprint := ⟨[], [], r, r, !r⟩

theorem ends_msrWrite {r : Bool} {mask : BitVec 4} {w : Word} (h : msrWrite r mask w s = .next t) :
    Ends false (msrFootprint r) s t := by
  cases r with
  | true =>
    simp only [msrWrite, if_true] at h
    split at h
    · cases h
    · cases h
      exact .nextArm (within_setSpsr rfl s _) (by simp) (by simp)
  | false =>
    obtain ⟨u, hu, h⟩ := orFault_next h
    have control : Within (msrFootprint false) s u ∧ u.pc = s.pc ∧ u.cpsr.t = s.cpsr.t := by
      split at hu
      next write =>
        have own : s.cpsr.mode ≠ .usr := by simp [Mode.privileged] at write; exact write.2
        unfold msrControl at hu
        split at hu
        next => cases hu
        next same =>
          split at hu
          next => cases hu
          next =>
            cases hu
            exact ⟨within_setCpsr rfl rfl s fun e => absurd e own, rfl, by simpa using same⟩
      next => cases hu; exact ⟨within_draws _ s s.draws, rfl, rfl⟩
    obtain ⟨within, pc, thumb⟩ := control
    cases h
    split
    · exact .nextArm (within.trans (within_flags rfl u _ _ _ _ u.draws)) pc thumb
    · exact .nextArm within pc thumb

theorem ends_msrReg {r : Bool} {mask sbo sbzA : BitVec 4} {sbzB : BitVec 2}
    (h : execMsrReg c r mask sbo sbzA sbzB rm s = .next t) : Ends false (msrFootprint r) s t :=
  .armGate h fun h => ends_msrWrite (stopIf_next h).2

theorem ends_msrImm {r : Bool} {mask sbo rot : BitVec 4} {imm8 : BitVec 8}
    (h : execMsrImm c r mask sbo rot imm8 s = .next t) : Ends false (msrFootprint r) s t := .armGate h ends_msrWrite

/-- What an instruction may change that writes registers of the mode and stores to cells. -/
def storeFootprint (m : Mode) (regs : List Reg) (cells : List Nat) : Footprint := ⟨named m regs, cells, true, true, true⟩

/-- The end of a swap: the read, the store, then Rd (R290, R291). -/
theorem ends_swap {a : Word} {w : Width} {v temp : Word} {s1 : State} (hd : rd ≠ 15)
    (read : ∃ d, s1 = { s with draws := d })
    (h : orFault (cpuWrite a w v s1) (fun s2 => .next (s2.setX rd temp).nextArm) = .next t) :
    Ends false (storeFootprint s.cpsr.mode [rd] (storedCells a w s)) s t := by
  obtain ⟨d, rfl⟩ := read
  obtain ⟨u, hu, h⟩ := orFault_next h
  cases h
  obtain ⟨pc, cpsr⟩ := cpuWrite_keeps hu
  have stored : Within (storeFootprint s.cpsr.mode [rd] (storedCells a w s)) s u :=
    (within_draws _ s d).trans (within_cpuWrite hu fun _ hn => hn)
  exact .nextArm (stored.trans (within_setX (congrArg (fun p => named p.mode [rd]) cpsr.symm) hd (by simp) temp))
    ((State.setX_pc hd _ _).trans pc) (by simp [cpsr])

theorem swapStops_next {e : Outcome} (h : swapStops rn rd rm e = .next t) : rd ≠ 15 ∧ e = .next t := by
  obtain ⟨noPc, h⟩ := stopIf_next h
  exact ⟨by rintro rfl; simp at noPc, (stopIf_next h).2⟩

theorem ends_swp {sbz : BitVec 4} (h : execSwp c rn rd sbz rm s = .next t) :
    Ends false (storeFootprint s.cpsr.mode [rd] (storedCells (align4 (s.x rn)) .word s)) s t :=
  .armGate h fun h => by
    obtain ⟨hd, h⟩ := swapStops_next h
    exact ends_swap hd (loadRotated_state _ _) h

theorem ends_swpb {sbz : BitVec 4} (h : execSwpb c rn rd sbz rm s = .next t) :
    Ends false (storeFootprint s.cpsr.mode [rd] (storedCells (s.x rn) .byte s)) s t :=
  .armGate h fun h => by
    obtain ⟨hd, h⟩ := swapStops_next h
    exact ends_swap hd (cpuRead_state (s.x rn) .byte s.begun) h

/-- What BX and T_BX may change: T alone of the status (R352, R433). -/
def exchangeFootprint : Footprint := ⟨[], [], false, false, true⟩

theorem ends_branchExchange {thumb : Bool} {v : Word} (h : branchExchange v s = .next t) :
    Ends thumb exchangeFootprint s t := by
  cases unpredIf_next h
  exact .jump (within_setCpsr rfl rfl s fun hu => ⟨hu, rfl, rfl⟩) fun _ _ => alignFor_alignFor _ _

theorem ends_bx {sbo : BitVec 12} (h : execBx c sbo rm s = .next t) : Ends false exchangeFootprint s t :=
  .armGate h ends_branchExchange

theorem ends_tBx {sbzA : BitVec 1} {h2 : Bool} {r : LowReg} {sbzB : BitVec 3} (h : execTBx sbzA h2 r sbzB s = .next t) :
    Ends true exchangeFootprint s t := .thumbGate (unpredIf_next h) ends_branchExchange

/-- A branch of an aligned pc by a multiple of 4 (R350, R351). -/
theorem align4_branch {off : BitVec 24} {k : Word} (hk : k.toNat % 4 = 0) (aligned : PcAligned s) (arm : s.cpsr.t = false) :
    align4 (s.pc + k + branchOffset off) = s.pc + k + branchOffset off := by
  unfold PcAligned at aligned
  rw [arm] at aligned
  exact align4_add (align4_add aligned hk) (shiftLeft_mod _ (by decide))

theorem ends_b {off : BitVec 24} (h : execB c off s = .next t) : Ends false (aluFootprint s.cpsr.mode [] true) s t :=
  .armGate h fun h => by
    cases h
    refine .jump (within_draws _ _ s.draws) fun aligned (arm : s.cpsr.t = false) => ?_
    simpa [alignFor, arm] using align4_branch (s := s) (k := 8) (by decide) aligned arm

theorem ends_bl {off : BitVec 24} (h : execBl c off s = .next t) : Ends false (aluFootprint s.cpsr.mode [regLR] true) s t :=
  .armGate h fun h => by
    cases h
    refine .jump (within_setX rfl (by decide) (by simp) _) fun aligned (arm : s.cpsr.t = false) => ?_
    simpa [alignFor, arm] using align4_branch (s := s) (k := 8) (by decide) aligned arm

/-- What an instruction may change that raises an exception (R508). -/
def raiseFootprint (m : Mode) : Footprint := ⟨named m [regLR], [], false, false, false⟩

theorem ends_raiseArm {e : Exc} (he : e = .undefined ∨ e = .softwareInterrupt)
    (h : raiseArm e s.begun = .next t) : Ends false (raiseFootprint e.mode) s t := by
  rw [raiseArm_begun he] at h
  cases h
  exact .raised e he rfl (physReg_mem_named (by decide) (by simp)) ⟨rfl, rfl, rfl⟩

theorem ends_raiseThumb {e : Exc} (he : e = .undefined ∨ e = .softwareInterrupt)
    (h : raiseThumb e s.begun = .next t) : Ends true (raiseFootprint e.mode) s t := by
  rw [raiseThumb_begun he] at h
  cases h
  exact .raised e he rfl (physReg_mem_named (by decide) (by simp)) ⟨rfl, rfl, rfl⟩

theorem ends_raisingArm {e : Exc} (he : e = .undefined ∨ e = .softwareInterrupt) {regs : List Reg}
    (h : armGate c true regs s (raiseArm e) = .next t) : Ends false (raiseFootprint e.mode) s t := by
  rcases armGate_next h with rfl | ⟨_, effect⟩
  · exact .nextArm (within_begun _ s) rfl rfl
  · exact ends_raiseArm he effect

theorem ends_coprocessor (h : coprocessor c s = .next t) : Ends false (raiseFootprint .und) s t := by
  unfold coprocessor at h
  split at h
  · exact .armGate h fun h => by cases h; exact .nextArm (within_draws _ _ s.draws) rfl rfl
  · exact ends_raisingArm (.inl rfl) h

end

-- Single transfers

theorem addressOf_writeBack (b o : Word) (p u w : Bool) : (addressOf b o p u w).writeBack = (!p || w) := by
  cases p <;> rfl

/-- What a load may change: the base it writes back and Rd. -/
def loadFootprint (m : Mode) (rn rd : Reg) (wb : Bool) : Footprint := ⟨named m (writtenBack rn wb ++ [rd]), [], true, true, true⟩

section
variable {a : Address} {wb : Bool} {rn rd : Reg} {s t : State}

theorem writeBack_pc (hn : a.writeBack = true → rn ≠ 15) (u : State) : (writeBack a rn u).pc = u.pc := by
  unfold writeBack
  split
  · next hw => exact State.setX_pc (hn hw) _ _
  · rfl

theorem writeBack_cpsr (u : State) : (writeBack a rn u).cpsr = u.cpsr := by
  unfold writeBack
  split <;> simp

theorem within_writeBack {f : Footprint} {regs : List Reg} (hf : f.regs = named s.cpsr.mode (writtenBack rn a.writeBack ++ regs))
    (hn : a.writeBack = true → rn ≠ 15) : Within f s (writeBack a rn s) := by
  unfold writeBack
  split
  · next hw => exact within_setX hf (hn hw) (by simp [writtenBack, hw]) _
  · exact within_draws f s s.draws

/-- The end of a load once the state is that of its read: the write-back, then Rd (R300). -/
theorem ends_loadFinish {v : Word} {s1 : State} (hw : a.writeBack = wb) (hn : a.writeBack = true → rn ≠ 15) (hd : rd ≠ 15)
    (read : ∃ d, s1 = { s with draws := d }) (h : loadFinish a rn rd v s1 = .next t) :
    Ends false (loadFootprint s.cpsr.mode rn rd wb) s t := by
  obtain ⟨d, rfl⟩ := read
  subst hw
  cases unpredIf_next h
  have back : Within (loadFootprint s.cpsr.mode rn rd a.writeBack) s (writeBack a rn { s with draws := d }) :=
    (within_draws _ s d).trans (within_writeBack rfl hn)
  exact .nextArm (back.trans (within_setX (by rw [writeBack_cpsr]; rfl) hd (by simp) v))
    ((State.setX_pc hd _ _).trans (writeBack_pc hn _)) (by simp [writeBack_cpsr])

theorem ends_loadWord (hw : a.writeBack = wb) (hn : a.writeBack = true → rn ≠ 15) (h : loadWord a rn rd s = .next t) :
    Ends false (loadFootprint s.cpsr.mode rn rd wb) s t := by
  have read := loadRotated_state a.addr s
  by_cases hd : rd = 15
  · have jump : (writeBack a rn (loadRotated a.addr s).2).setPc (align4 (loadRotated a.addr s).1) = t :=
      Host.Outcome.next.inj ((if_pos hd).symm.trans h)
    obtain ⟨d, read⟩ := read
    rw [← jump, read]
    subst hw
    refine .jump ((within_draws _ s d).trans (within_writeBack rfl hn)) fun _ (arm : s.cpsr.t = false) => ?_
    rw [writeBack_cpsr]
    simpa [alignFor, arm] using align4_align4 _
  · exact ends_loadFinish hw hn hd read ((if_neg hd).symm.trans h)

theorem ends_loadWordT (hw : a.writeBack = wb) (hn : a.writeBack = true → rn ≠ 15) (h : loadWordT a rn rd s = .next t) :
    Ends false (loadFootprint s.cpsr.mode rn rd wb) s t := ends_loadWord hw hn (stopIf_next h).2

theorem ends_loadByte (hw : a.writeBack = wb) (hn : a.writeBack = true → rn ≠ 15) (h : loadByte a rn rd s = .next t) :
    Ends false (loadFootprint s.cpsr.mode rn rd wb) s t := by
  obtain ⟨hd, h⟩ := stopIf_next h
  exact ends_loadFinish hw hn (by simpa using hd) (cpuRead_state a.addr .byte s) h

theorem ends_loadHalf (hw : a.writeBack = wb) (hn : a.writeBack = true → rn ≠ 15) (h : loadHalf a rn rd s = .next t) :
    Ends false (loadFootprint s.cpsr.mode rn rd wb) s t := by
  obtain ⟨hd, h⟩ := stopIf_next h
  exact ends_loadFinish hw hn (by simpa using hd) (loadHalfRotated_state a.addr s) (unpredIf_next h)

theorem ends_loadSignedByte (hw : a.writeBack = wb) (hn : a.writeBack = true → rn ≠ 15)
    (h : loadSignedByte a rn rd s = .next t) : Ends false (loadFootprint s.cpsr.mode rn rd wb) s t := by
  obtain ⟨hd, h⟩ := stopIf_next h
  exact ends_loadFinish hw hn (by simpa using hd) (loadByteSigned_state a.addr s) h

theorem ends_loadSignedHalf (hw : a.writeBack = wb) (hn : a.writeBack = true → rn ≠ 15)
    (h : loadSignedHalf a rn rd s = .next t) : Ends false (loadFootprint s.cpsr.mode rn rd wb) s t := by
  obtain ⟨hd, h⟩ := stopIf_next h
  exact ends_loadFinish hw hn (by simpa using hd) (loadHalfSigned_state a.addr s) (unpredIf_next h)

/-- The end of a store: the bytes, then the write-back (R300). -/
theorem ends_storeFinish {b : Word} {w : Width} {v : Word} (hw : a.writeBack = wb) (hn : a.writeBack = true → rn ≠ 15)
    (h : storeFinish a rn rd (cpuWrite b w v s) s = .next t) :
    Ends false (storeFootprint s.cpsr.mode (writtenBack rn wb) (storedCells b w s)) s t := by
  subst hw
  obtain ⟨u, hu, h⟩ := orFault_next (unpredIf_next h)
  cases h
  obtain ⟨pc, cpsr⟩ := cpuWrite_keeps hu
  have stored : Within (storeFootprint s.cpsr.mode (writtenBack rn a.writeBack) (storedCells b w s)) s u :=
    within_cpuWrite hu fun _ hn => hn
  refine .nextArm (stored.trans (within_writeBack (regs := []) ?_ hn)) ((writeBack_pc hn u).trans pc)
    (by rw [writeBack_cpsr, cpsr])
  rw [List.append_nil, cpsr]
  rfl

theorem ends_storeWord (hw : a.writeBack = wb) (hn : a.writeBack = true → rn ≠ 15) (h : storeWord a rn rd s = .next t) :
    Ends false (storeFootprint s.cpsr.mode (writtenBack rn wb) (storedCells (align4 a.addr) .word s)) s t :=
  ends_storeFinish hw hn h

theorem ends_storeByte (hw : a.writeBack = wb) (hn : a.writeBack = true → rn ≠ 15) (h : storeByte a rn rd s = .next t) :
    Ends false (storeFootprint s.cpsr.mode (writtenBack rn wb) (storedCells a.addr .byte s)) s t :=
  ends_storeFinish hw hn (stopIf_next h).2

theorem ends_storeHalf (hw : a.writeBack = wb) (hn : a.writeBack = true → rn ≠ 15) (h : storeHalf a rn rd s = .next t) :
    Ends false (storeFootprint s.cpsr.mode (writtenBack rn wb) (storedCells (align2 a.addr) .half s)) s t :=
  ends_storeFinish hw hn (unpredIf_next (unpredIf_next h))

theorem addressStops_next {rm : Option Reg} {e : Outcome} (h : addressStops a rn rm e = .next t) :
    (a.writeBack = true → rn ≠ 15) ∧ e = .next t := by
  obtain ⟨ok, h⟩ := stopIf_next h
  exact ⟨fun hw => by simpa [hw] using ok, (stopIf_next h).2⟩

end

section
variable {access : Address → Reg → Reg → State → Outcome} {c : Cond} {p u w : Bool} {rn rd rm : Reg} {s t : State}
  {f : Footprint}

/-- A transfer with an immediate offset ends as its access does. -/
theorem ends_singleImm {imm12 : BitVec 12} (h : singleImm access c p u w rn rd imm12 s = .next t)
    (ha : let a := addressOf (s.armX rn) (offset12 imm12) p u w
      (a.writeBack = true → rn ≠ 15) → access a rn rd s.begun = .next t → Ends false f s.begun t) : Ends false f s t :=
  .armGate h fun h => by
    obtain ⟨hn, h⟩ := addressStops_next h
    exact ha hn h

/-- A transfer with a register offset ends as its access does. -/
theorem ends_singleReg {amt : BitVec 5} {sh : Shift} (h : singleReg access c p u w rn rd amt sh rm s = .next t)
    (ha : let a := addressOf (s.armX rn) (offsetReg s rm sh amt) p u w
      (a.writeBack = true → rn ≠ 15) → access a rn rd s.begun = .next t → Ends false f s.begun t) : Ends false f s t :=
  .armGate h fun h => by
    obtain ⟨hn, h⟩ := addressStops_next h
    exact ha hn h

/-- A halfword or signed transfer with a register offset ends as its access does. -/
theorem ends_halfReg {sbz : BitVec 4} (h : halfReg access c p u w rn rd sbz rm s = .next t)
    (ha : let a := addressOf (s.armX rn) (s.armX rm) p u w
      a.writeBack = (!p || w) → (a.writeBack = true → rn ≠ 15) → access a rn rd s.begun = .next t →
        Ends false f s.begun t) : Ends false f s t :=
  .armGate h fun h => by
    obtain ⟨hn, h⟩ := addressStops_next (stopIf_next h).2
    exact ha (addressOf_writeBack ..) hn h

/-- A halfword or signed transfer with an immediate offset ends as its access does. -/
theorem ends_halfImm {immH immL : BitVec 4} (h : halfImm access c p u w rn rd immH immL s = .next t)
    (ha : let a := addressOf (s.armX rn) (offsetHalf immH immL) p u w
      a.writeBack = (!p || w) → (a.writeBack = true → rn ≠ 15) → access a rn rd s.begun = .next t →
        Ends false f s.begun t) : Ends false f s t :=
  .armGate h fun h => by
    obtain ⟨hn, h⟩ := addressStops_next (stopIf_next h).2
    exact ha (addressOf_writeBack ..) hn h

end

-- Block transfers

/-- The registers of a list, by their bits (R320). -/
theorem mem_regList {n : Nat} (hn : n ≤ 16) {list : BitVec n} {r : Reg} : r ∈ regList list ↔ list.getLsbD r.toNat = true := by
  simp only [regList, List.mem_map, List.mem_filter, List.mem_range]
  constructor
  · rintro ⟨i, ⟨hi, bit⟩, rfl⟩
    rwa [BitVec.toNat_ofNat, Nat.mod_eq_of_lt (by omega)]
  · intro bit
    exact ⟨r.toNat, ⟨BitVec.lt_of_getLsbD bit, bit⟩, BitVec.ofNat_toNat ..⟩

/-- The registers a block moves are those of its list, or R15 (R320). -/
theorem mem_blockOf {n : Nat} {base : Word} {p u : Bool} {list : BitVec n} {r : Reg} (h : r ∈ (blockOf base p u list).regs)
    (hr : r ≠ 15) : r ∈ regList list := by
  unfold blockOf at h
  dsimp only at h
  split at h
  · exact absurd (by simpa using h) hr
  · exact h

section
variable {f : Footprint} {s t : State}

/-- Loaded registers written by a register write that is within a footprint, R15 apart (R321). -/
theorem within_writeLoaded {set : State → Reg → Word → State} {loaded : List (Reg × Word)}
    (hset : ∀ u r v, u.cpsr = s.cpsr → r ≠ 15 → r ∈ loaded.map Prod.fst →
      Within f u (set u r v) ∧ (set u r v).pc = u.pc ∧ (set u r v).cpsr = u.cpsr) :
    Within f s (writeLoaded set loaded s) ∧ (writeLoaded set loaded s).pc = s.pc ∧
      (writeLoaded set loaded s).cpsr = s.cpsr := by
  induction loaded generalizing s with
  | nil => exact ⟨within_draws f s s.draws, rfl, rfl⟩
  | cons p rest ih =>
    obtain ⟨r, v⟩ := p
    unfold writeLoaded
    by_cases hr : r = 15
    · rw [if_pos hr]
      exact ih fun u q w hu hq hm => hset u q w hu hq (List.mem_cons_of_mem _ hm)
    · rw [if_neg hr]
      obtain ⟨within, pc, cpsr⟩ := hset s r v rfl hr (by simp)
      obtain ⟨within', pc', cpsr'⟩ := ih (s := set s r v) fun u q w hu hq hm =>
        hset u q w (hu.trans cpsr) hq (List.mem_cons_of_mem _ hm)
      exact ⟨within.trans within', pc'.trans pc, cpsr'.trans cpsr⟩

/-- A block of registers loaded into the current mode (R321). -/
theorem within_loadBlock {a : Word} {regs all : List Reg} (hf : f.regs = named s.cpsr.mode all)
    (h : ∀ r ∈ regs, r ≠ 15 → r ∈ all) :
    let u := writeLoaded State.setX (loadList a regs s).1 (loadList a regs s).2
    Within f s u ∧ u.pc = s.pc ∧ u.cpsr = s.cpsr := by
  obtain ⟨d, hd⟩ := loadList_state a regs s
  rw [hd]
  obtain ⟨within, pc, cpsr⟩ := within_writeLoaded (f := f) (s := { s with draws := d }) (set := State.setX)
    (loaded := (loadList a regs s).1) fun u r v (hu : u.cpsr = s.cpsr) hr hm =>
      ⟨within_setX (by rw [hu]; exact hf) hr (h r (by rwa [loadList_regs] at hm) hr) v, State.setX_pc hr u v, by simp⟩
  exact ⟨(within_draws f s d).trans within, pc, cpsr⟩

/-- A block of registers loaded into the User bank (R323). -/
theorem within_loadBlockUsr {a : Word} {regs all : List Reg} (hf : f.regs = named .usr all)
    (h : ∀ r ∈ regs, r ≠ 15 → r ∈ all) :
    let u := writeLoaded State.setXUsr (loadList a regs s).1 (loadList a regs s).2
    Within f s u ∧ u.pc = s.pc ∧ u.cpsr = s.cpsr := by
  obtain ⟨d, hd⟩ := loadList_state a regs s
  rw [hd]
  obtain ⟨within, pc, cpsr⟩ := within_writeLoaded (f := f) (s := { s with draws := d }) (set := State.setXUsr)
    (loaded := (loadList a regs s).1) fun u r v (hu : u.cpsr = s.cpsr) hr hm =>
      ⟨within_setRegOf hr (hf ▸ physReg_mem_named hr (h r (by rwa [loadList_regs] at hm) hr)) u (fun _ => rfl) v, 
       by rw [State.setXUsr_reg hr], by simp⟩
  exact ⟨(within_draws f s d).trans within, pc, cpsr⟩

end

section
variable {c : Cond} {p u w : Bool} {rn : Reg} {s t : State}

theorem blockStops_next {n : Nat} {list : BitVec n} {e : Outcome} (h : blockStops rn list s e = .next t) :
    rn ≠ 15 ∧ e = .next t := by
  obtain ⟨ok, h⟩ := stopIf_next h
  exact ⟨by simpa using ok, unpredIf_next h⟩

/-- What a load of a block may change. -/
def ldmFootprint (m : Mode) (rn : Reg) (w : Bool) (list : List Reg) (status : Bool) : Footprint :=
  ⟨named m (writtenBack rn w ++ list), [], status, status, true⟩

/-- The write-back of a block load (R321). -/
theorem within_loadWriteBack {f : Footprint} {n : Nat} {list : BitVec n} {b : Block} {regs : List Reg}
    (hf : f.regs = named s.cpsr.mode (writtenBack rn w ++ regs)) (hn : rn ≠ 15) :
    Within f s (loadWriteBack w rn list b s) ∧ (loadWriteBack w rn list b s).pc = s.pc ∧
      (loadWriteBack w rn list b s).cpsr = s.cpsr := by
  unfold loadWriteBack
  split
  · next hw =>
    have back : w = true := (Bool.and_eq_true_iff.mp hw).1
    exact ⟨within_setX hf hn (by simp [writtenBack, back]) _, State.setX_pc hn _ _, by simp⟩
  · exact ⟨within_draws f s s.draws, rfl, rfl⟩

/-- The registers of a block and its write-back (R321, R324). -/
theorem within_ldm {a : Word} {regs all : List Reg} {n : Nat} {list : BitVec n} {b : Block} {status : Bool}
    (h : ∀ r ∈ regs, r ≠ 15 → r ∈ all) (hn : rn ≠ 15) :
    let u := loadWriteBack w rn list b (writeLoaded State.setX (loadList a regs s).1 (loadList a regs s).2)
    Within (ldmFootprint s.cpsr.mode rn w all status) s u ∧ u.pc = s.pc ∧ u.cpsr = s.cpsr := by
  obtain ⟨loaded, pc, cpsr⟩ := within_loadBlock (f := ldmFootprint s.cpsr.mode rn w all status) (s := s) (a := a)
    (regs := regs) rfl fun r hr h15 => List.mem_append_right _ (h r hr h15)
  obtain ⟨back, pc', cpsr'⟩ := within_loadWriteBack (f := ldmFootprint s.cpsr.mode rn w all status) (w := w) (list := list)
    (b := b) (regs := all) (by rw [cpsr]; rfl) hn
  exact ⟨loaded.trans back, pc'.trans pc, cpsr'.trans cpsr⟩

/-- A block load ends at the word loaded for R15, or at the next instruction (R321, R323). -/
theorem ends_loadedPc {f : Footprint} {loaded : List (Reg × Word)} {v : State} (hv : Within f s v) (pc : v.pc = s.pc)
    (cpsr : v.cpsr = s.cpsr)
    (h : (match loadedPc loaded with
      | some a => Host.Outcome.next (v.setPc (align4 a))
      | none => .next v.nextArm) = (.next t : Outcome)) : Ends false f s t := by
  split at h
  · cases h
    exact .jump hv fun _ (arm : s.cpsr.t = false) => by rw [cpsr, arm]; exact align4_align4 _
  · cases h
    exact .nextArm hv pc (by rw [cpsr])

theorem ends_ldm {list : BitVec 16} (h : execLdm c p u w rn list s = .next t) :
    Ends false (ldmFootprint s.cpsr.mode rn w (regList list) true) s t :=
  .armGate h fun h => by
    obtain ⟨hn, h⟩ := blockStops_next h
    have h := unpredIf_next h
    obtain ⟨within, pc, cpsr⟩ := within_ldm (s := s.begun) (a := (blockOf (s.x rn) p u list).start) (w := w) (list := list)
      (b := blockOf (s.x rn) p u list) (status := true) (fun _ => mem_blockOf (base := s.x rn) (p := p) (u := u)) hn
    exact ends_loadedPc within pc cpsr h

theorem ends_ldmUsr {list : BitVec 15} (h : execLdmUsr c p u w rn list s = .next t) :
    Ends false (ldmFootprint .usr rn false (regList list) true) s t :=
  .armGate h fun h => by
    obtain ⟨_, h⟩ := blockStops_next h
    have h := (stopIf_next (stopIf_next h).2).2
    obtain ⟨within, pc, cpsr⟩ := within_loadBlockUsr (f := ldmFootprint .usr rn false (regList list) true) (s := s.begun)
      (a := (blockOf (s.x rn) p u list).start) (all := regList list) rfl
      (fun _ => mem_blockOf (base := s.x rn) (p := p) (u := u))
    exact ends_loadedPc (within.trans (within_pc _ _ _ _ true)) pc cpsr h

theorem ends_ldmRet {list : BitVec 15} (h : execLdmRet c p u w rn list s = .next t) :
    Ends false (ldmFootprint s.cpsr.mode rn w (regList list) false) s t :=
  .armGate h fun h => by
    obtain ⟨hn, h⟩ := blockStops_next h
    have h := unpredIf_next h
    obtain ⟨v, hv, h⟩ := orFault_next h
    cases h
    have regs (r : Reg) (hr : r ∈ (blockOf (s.x rn) p u (1#1 ++ list)).regs) (h15 : r ≠ 15) : r ∈ regList list := by
      have bit := (mem_regList (by decide)).mp (mem_blockOf hr h15)
      rw [mem_regList (by decide)]
      rw [BitVec.getLsbD_append] at bit
      split at bit
      · exact bit
      · have : r.toNat < 16 := r.isLt
        exact absurd (BitVec.eq_of_toNat_eq (by show r.toNat = 15; omega)) h15
    obtain ⟨within, _, _⟩ := within_ldm (s := s.begun) (a := (blockOf (s.x rn) p u (1#1 ++ list)).start) (w := w) (list := list)
      (b := blockOf (s.x rn) p u (1#1 ++ list)) (status := false) regs hn
    exact ends_returnFromException hv within rfl rfl

/-- The end of a store of a block: the words, then the write-back (R322). -/
theorem ends_stm {list : BitVec 16} (h : execStm c p u w rn list s = .next t) :
    Ends false (storeFootprint s.cpsr.mode (writtenBack rn w)
      (blockCells s.bus (blockOf (s.x rn) p u list).start (blockOf (s.x rn) p u list).regs.length)) s t :=
  .armGate h fun h => by
    obtain ⟨hn, h⟩ := blockStops_next h
    obtain ⟨v, hv, h⟩ := orFault_next (unpredIf_next h)
    cases h
    obtain ⟨stored, pc, cpsr⟩ := within_storeList (f := storeFootprint s.cpsr.mode (writtenBack rn w)
      (blockCells s.bus (blockOf (s.x rn) p u list).start (blockOf (s.x rn) p u list).regs.length)) hv
      (by rw [List.length_map]; exact fun _ hn => hn)
    cases w with
    | true =>
      exact .nextArm (stored.trans (within_setX (by rw [cpsr]; rfl) hn (by simp [writtenBack]) _))
        ((State.setX_pc hn _ _).trans pc) (by simp [cpsr])
    | false => exact .nextArm stored pc (by simp [cpsr])

theorem ends_stmUsr {list : BitVec 16} (h : execStmUsr c p u w rn list s = .next t) :
    Ends false (storeFootprint s.cpsr.mode []
      (blockCells s.bus (blockOf (s.x rn) p u list).start (blockOf (s.x rn) p u list).regs.length)) s t :=
  .armGate h fun h => by
    obtain ⟨_, h⟩ := blockStops_next h
    obtain ⟨v, hv, h⟩ := orFault_next (stopIf_next (stopIf_next h).2).2
    cases h
    obtain ⟨stored, pc, cpsr⟩ := within_storeList (f := storeFootprint s.cpsr.mode []
      (blockCells s.bus (blockOf (s.x rn) p u list).start (blockOf (s.x rn) p u list).regs.length)) hv
      (by rw [List.length_map]; exact fun _ hn => hn)
    exact .nextArm (stored.trans (within_pc _ v _ _ true)) pc (by simp [cpsr])

end

-- Thumb instructions

section
variable {d : Reg} {rs rd : LowReg} {s t : State}

/-- A register and the flags are written, and the pc advances (R400). -/
theorem ends_regAndFlags (hd : d ≠ 15) (v : Word) (n z c o : Bool) (k : Nat) :
    Ends true (aluFootprint s.cpsr.mode [d] false) s
      { s.setX d v with cpsr := { (s.setX d v).cpsr with n := n, z := z, c := c, v := o }, draws := k }.nextThumb :=
  .nextThumb ((within_setX rfl hd (by simp) v).trans (within_flags rfl _ _ _ _ _ _)) (State.setX_pc hd _ _) (by simp)

theorem ends_thumbArith {r : AluResult} (hd : d ≠ 15) (h : thumbArith d r s = .next t) :
    Ends true (aluFootprint s.cpsr.mode [d] false) s t := by
  cases h
  exact ends_regAndFlags hd _ _ _ _ _ _

theorem ends_thumbShift {r : Shifted} (hd : d ≠ 15) (h : thumbShift d r s = .next t) :
    Ends true (aluFootprint s.cpsr.mode [d] false) s t := by
  cases h
  exact ends_regAndFlags hd _ _ _ _ _ _

theorem ends_thumbLogic {v : Word} (hd : d ≠ 15) (h : thumbLogic d v s = .next t) :
    Ends true (aluFootprint s.cpsr.mode [d] false) s t := by
  cases h
  exact ends_regAndFlags hd _ _ _ _ _ _

theorem ends_thumbCompare {r : AluResult} (h : thumbCompare r s = .next t) :
    Ends true (aluFootprint s.cpsr.mode [] false) s t := by
  cases h
  exact .nextThumb (within_flags rfl s _ _ _ _ s.draws) rfl rfl

theorem ends_thumbWrite {v : Word} (hd : d ≠ 15) (h : thumbWrite d v s = .next t) :
    Ends true (aluFootprint s.cpsr.mode [d] true) s t := by
  cases h
  exact .nextThumb (within_setX rfl hd (by simp) _) (State.setX_pc hd _ _) (by simp)

theorem ends_thumbWriteAny {v : Word} (h : thumbWriteAny d v s = .next t) :
    Ends true (aluFootprint s.cpsr.mode [d] true) s t := by
  unfold thumbWriteAny at h
  split at h
  · cases h
    exact .jump (within_draws _ s s.draws) fun _ thumb => by rw [thumb]; exact align2_align2 v
  · next hd => exact ends_thumbWrite hd h

theorem Ends.thumbT4 {f : Footprint} {body : Word → Word → State → Outcome} (h : thumbT4 rs rd s body = .next t)
    (hb : body (s.x (low rd)) (s.x (low rs)) s.begun = .next t → Ends true f s.begun t) : Ends true f s t :=
  (hb ((thumbT4_run rs rd s body).symm.trans h)).of_begun

theorem ends_thumbT5 {f : Footprint} {h1 h2 : Bool} {body : Word → Word → State → Outcome}
    (h : thumbT5 h1 h2 rs rd s body = .next t)
    (hb : body (s.thumbX (high h1 rd)) (s.thumbX (high h2 rs)) s.begun = .next t → Ends true f s.begun t) :
    Ends true f s t := .thumbGate h fun h => hb (unpredIf_next h)

theorem ends_thumbRegOffset {f : Footprint} {ro rb : LowReg} {access : Word → State → Outcome}
    (h : thumbRegOffset ro rb rd s access = .next t)
    (ha : access (s.x (low rb) + s.x (low ro)) s.begun = .next t → Ends true f s.begun t) : Ends true f s t :=
  .thumbGate h ha

theorem ends_thumbImmOffset {f : Footprint} {off5 : BitVec 5} {scale : Nat} {rb : LowReg}
    {access : Word → State → Outcome} (h : thumbImmOffset off5 scale rb rd s access = .next t)
    (ha : access (s.x (low rb) + scaled off5 scale) s.begun = .next t → Ends true f s.begun t) : Ends true f s t :=
  .thumbGate h ha

theorem ends_tTst (h : execTTst rs rd s = .next t) : Ends true (aluFootprint s.cpsr.mode [] false) s t :=
  .thumbT4 h fun h => by
    cases h
    exact .nextThumb (within_flags rfl s.begun _ _ _ _ s.draws) rfl rfl

theorem ends_tMul (h : execTMul rs rd s = .next t) : Ends true (aluFootprint s.cpsr.mode [low rd] false) s t :=
  .thumbT4 h fun h => by
    cases unpredIf_next h
    exact .nextThumb ((within_setX rfl (low_ne rd) (by simp) _).trans (within_flags rfl _ _ _ _ _ _))
      (State.setX_pc (low_ne rd) _ _) (by simp)

theorem ends_thumbLoad {l : Word × State} (read : ∃ d, l.2 = { s with draws := d }) (h : thumbLoad rd l = .next t) :
    Ends true (aluFootprint s.cpsr.mode [low rd] true) s t := by
  have loaded : (l.2.setX (low rd) l.1).nextThumb = t := Host.Outcome.next.inj h
  obtain ⟨d, read⟩ := read
  rw [← loaded, read]
  exact .nextThumb ((within_draws _ s d).trans (within_setX rfl (low_ne rd) (by simp) _))
    (State.setX_pc (low_ne rd) _ _) (by simp)

theorem ends_thumbStore {a v : Word} {w : Width} (h : thumbStore (cpuWrite a w v s) = .next t) :
    Ends true (storeFootprint s.cpsr.mode [] (storedCells a w s)) s t := by
  obtain ⟨u, hu, h⟩ := orFault_next h
  cases h
  obtain ⟨pc, cpsr⟩ := cpuWrite_keeps hu
  exact .nextThumb (within_cpuWrite hu fun _ hn => hn) pc (by rw [cpsr])

/-- A branch of an aligned pc by a multiple of 2 (R472, R474). -/
theorem ends_thumbBranch {n : Nat} {off : BitVec n} 
    (h : (.next (s.setPc (s.pc + 4 + off.signExtend 32 <<< 1)) : Outcome) = .next t) :
    Ends true (aluFootprint s.cpsr.mode [] true) s t := by
  cases h
  refine .jump (within_draws _ s s.draws) fun aligned thumb => ?_
  unfold PcAligned at aligned
  rw [thumb] at aligned ⊢
  exact align2_add (align2_add aligned (by decide)) (shiftLeft_mod _ (by decide))

theorem ends_tBCond {c : Cond} {off : BitVec 8} (h : execTBCond c off s = .next t) :
    Ends true (aluFootprint s.cpsr.mode [] true) s t :=
  .thumbGate h fun h => by
    split at h
    · exact ends_thumbBranch h
    · cases h
      exact .nextThumb (within_draws _ _ s.draws) rfl rfl

theorem ends_tBlHi {off : BitVec 11} (h : execTBlHi off s = .next t) :
    Ends true (aluFootprint s.cpsr.mode [regLR] true) s t := .thumbGate h (ends_thumbWrite (by decide))

theorem ends_tBlLo {off : BitVec 11} (h : execTBlLo off s = .next t) :
    Ends true (aluFootprint s.cpsr.mode [regLR] true) s t :=
  .thumbGate h fun h => by
    cases h
    refine .jump (within_setX rfl (by decide) (by simp) _) fun _ (thumb : s.cpsr.t = true) => ?_
    simpa [alignFor, thumb] using align2_align2 _

-- Thumb block transfers

theorem mem_thumbMoved {list : BitVec 8} {extra : Option Reg} {r : Reg} (h : r ∈ thumbMoved (thumbList list extra))
    (hr : r ≠ 15) : r ∈ regList list ∨ extra = some r := by
  unfold thumbMoved at h
  split at h
  · exact absurd (by simpa using h) hr
  · simpa [thumbList, Option.mem_def] using h

theorem ends_thumbLoadFinish {f : Footprint} {loaded : List (Reg × Word)} {v : State} (hv : Within f s v) (pc : v.pc = s.pc)
    (cpsr : v.cpsr = s.cpsr) (h : thumbLoadFinish loaded v = .next t) : Ends true f s t := by
  unfold thumbLoadFinish at h
  split at h
  · cases h
    exact .jump hv fun _ thumb => by rw [cpsr, thumb]; exact align2_align2 _
  · cases h
    exact .nextThumb hv pc (by rw [cpsr])

theorem ends_thumbStoreList {a : Word} {vs : List Word} {v : Word} {k : Nat} (hd : d ≠ 15) (hk : vs.length = k)
    (h : orFault (storeList a vs s) (fun u => .next (u.setX d v).nextThumb) = .next t) :
    Ends true (storeFootprint s.cpsr.mode [d] (blockCells s.bus a k)) s t := by
  subst hk
  obtain ⟨u, hu, h⟩ := orFault_next h
  cases h
  obtain ⟨stored, pc, cpsr⟩ := within_storeList (f := storeFootprint s.cpsr.mode [d] (blockCells s.bus a vs.length)) hu
    fun _ hn => hn
  exact .nextThumb (stored.trans (within_setX (by rw [cpsr]; rfl) hd (by simp) _)) ((State.setX_pc hd _ _).trans pc)
    (by simp [cpsr])

theorem ends_tPush {r : Bool} {list : BitVec 8} (h : execTPush r list s = .next t) :
    Ends true (storeFootprint s.cpsr.mode [regSP] (blockCells s.bus (pushBase r list s) (pushRegs r list).length)) s t :=
  .thumbGate h fun h => ends_thumbStoreList (by decide) (List.length_map _) (unpredIf_next h)

theorem ends_tStmia {list : BitVec 8} (h : execTStmia rd list s = .next t) :
    Ends true (storeFootprint s.cpsr.mode [low rd]
      (blockCells s.bus (s.x (low rd)) (thumbMoved (thumbList list none)).length)) s t :=
  .thumbGate h fun h => ends_thumbStoreList (low_ne rd) (List.length_map _) (unpredIf_next (unpredIf_next h))

theorem ends_tPop {r : Bool} {list : BitVec 8} (h : execTPop r list s = .next t) :
    Ends true (aluFootprint s.cpsr.mode (regSP :: regList list) true) s t :=
  .thumbGate h fun h => by
    have h := unpredIf_next h
    obtain ⟨within, pc, cpsr⟩ := within_loadBlock (f := aluFootprint s.cpsr.mode (regSP :: regList list) true) (s := s.begun)
      (a := s.x regSP) (regs := thumbMoved (thumbList list (if r then some regPC else none))) rfl fun q hq hr => by
        rcases mem_thumbMoved hq hr with listed | extra
        · exact List.mem_cons_of_mem _ listed
        · cases r <;> simp at extra
          exact absurd extra.symm hr
    exact ends_thumbLoadFinish (within.trans (within_setX (by rw [cpsr]; rfl) (by decide) (by simp) _))
      ((State.setX_pc (by decide) _ _).trans pc) (by simp [cpsr]) h

theorem ends_tLdmia {list : BitVec 8} (h : execTLdmia rd list s = .next t) :
    Ends true (aluFootprint s.cpsr.mode (low rd :: regList list) true) s t :=
  .thumbGate h fun h => by
    have h := unpredIf_next h
    obtain ⟨within, pc, cpsr⟩ := within_loadBlock (f := aluFootprint s.cpsr.mode (low rd :: regList list) true) (s := s.begun)
      (a := s.x (low rd)) (regs := thumbMoved (thumbList list none)) rfl fun q hq hr => by
        rcases mem_thumbMoved hq hr with listed | extra
        · exact List.mem_cons_of_mem _ listed
        · cases extra
    refine ends_thumbLoadFinish ?_ ?_ ?_ h
    · split
      · exact within
      · exact within.trans (within_setX (by rw [cpsr]; rfl) (low_ne rd) (by simp) _)
    · split
      · exact pc
      · exact (State.setX_pc (low_ne rd) _ _).trans pc
    · split
      · exact cpsr
      · exact (State.setX_cpsr _ _ _).trans cpsr

end

-- Every instruction

/-- What an instruction may change, by the tables of the statements. -/
def footprint (i : Instr) (s : State) : Footprint where
  regs := writesRegs i s
  cells := storesTo i s
  keepsCpsr := keepsCpsr i
  keepsControl := keepsControl i
  keepsSaved := keepsSaved i

/-- Every instruction ends within its footprint, at an aligned pc, or by an exception of R502 or R504. -/
theorem exec_ends {i : Instr} {s t : State} (h : exec i s = .next t) : Ends (isThumb i) (footprint i s) s t := by
  cases i with
  | andImm | eorImm | subImm | rsbImm | addImm | adcImm | sbcImm | rscImm | tstImm | teqImm | cmpImm | cmnImm | orrImm
  | movImm | bicImm | mvnImm => exact ends_dpImm h
  | andRsi | eorRsi | subRsi | rsbRsi | addRsi | adcRsi | sbcRsi | rscRsi | tstRsi | teqRsi | cmpRsi | cmnRsi | orrRsi
  | movRsi | bicRsi | mvnRsi => exact ends_dpRsi h
  | andRsr | eorRsr | subRsr | rsbRsr | addRsr | adcRsr | sbcRsr | rscRsr | tstRsr | teqRsr | cmpRsr | cmnRsr | orrRsr
  | movRsr | bicRsr | mvnRsr => exact ends_dpRsr h
  | mul => exact ends_mul h
  | mla => exact ends_mla h
  | umull | umlal | smull | smlal => exact ends_mullExec h
  | mrs => exact ends_mrs h
  | msrReg => exact ends_msrReg h
  | msrImm => exact ends_msrImm h
  | swp => exact ends_swp h
  | swpb => exact ends_swpb h
  | bx => exact ends_bx h
  | strhReg => exact ends_halfReg h ends_storeHalf
  | strhImm => exact ends_halfImm h ends_storeHalf
  | ldrhReg => exact ends_halfReg h ends_loadHalf
  | ldrhImm => exact ends_halfImm h ends_loadHalf
  | ldrsbReg => exact ends_halfReg h ends_loadSignedByte
  | ldrsbImm => exact ends_halfImm h ends_loadSignedByte
  | ldrshReg => exact ends_halfReg h ends_loadSignedHalf
  | ldrshImm => exact ends_halfImm h ends_loadSignedHalf
  | ldrImmPre | ldrImmPost => exact ends_singleImm h (ends_loadWord rfl)
  | ldrRegPre | ldrRegPost => exact ends_singleReg h (ends_loadWord rfl)
  | strImmPre | strImmPost | strtImm => exact ends_singleImm h (ends_storeWord rfl)
  | strRegPre | strRegPost | strtReg => exact ends_singleReg h (ends_storeWord rfl)
  | ldrbImmPre | ldrbImmPost | ldrbtImm => exact ends_singleImm h (ends_loadByte rfl)
  | ldrbRegPre | ldrbRegPost | ldrbtReg => exact ends_singleReg h (ends_loadByte rfl)
  | strbImmPre | strbImmPost | strbtImm => exact ends_singleImm h (ends_storeByte rfl)
  | strbRegPre | strbRegPost | strbtReg => exact ends_singleReg h (ends_storeByte rfl)
  | ldrtImm => exact ends_singleImm h (ends_loadWordT rfl)
  | ldrtReg => exact ends_singleReg h (ends_loadWordT rfl)
  | und => exact ends_raisingArm (e := .undefined) (.inl rfl) h
  | ldm => exact ends_ldm h
  | stm => exact ends_stm h
  | ldmUsr => exact ends_ldmUsr h
  | ldmRet => exact ends_ldmRet h
  | stmUsr => exact ends_stmUsr h
  | b => exact ends_b h
  | bl => exact ends_bl h
  | ldc | stc | cdp | mcr | mrc => exact ends_coprocessor h
  | swi => exact ends_raisingArm (e := .softwareInterrupt) (.inr rfl) h
  | tLslImm | tLsrImm | tAsrImm => dsimp only [exec] at h; exact .thumbGate h (ends_thumbShift (low_ne _))
  | tAddReg | tSubReg | tAddImm3 | tSubImm3 | tAddImm8 | tSubImm8 =>
    dsimp only [exec] at h; exact .thumbGate h (ends_thumbArith (low_ne _))
  | tMovImm => dsimp only [exec] at h; exact .thumbGate h (ends_thumbLogic (low_ne _))
  | tCmpImm => dsimp only [exec] at h; exact .thumbGate h ends_thumbCompare
  | tAnd | tEor | tOrr | tBic | tMvn => dsimp only [exec] at h; exact .thumbT4 h (ends_thumbLogic (low_ne _))
  | tLslReg | tLsrReg | tAsrReg | tRor => dsimp only [exec] at h; exact .thumbT4 h (ends_thumbShift (low_ne _))
  | tAdc | tSbc | tNeg => dsimp only [exec] at h; exact .thumbT4 h (ends_thumbArith (low_ne _))
  | tTst => exact ends_tTst h
  | tCmpReg | tCmn => dsimp only [exec] at h; exact .thumbT4 h ends_thumbCompare
  | tMul => exact ends_tMul h
  | tAddHi | tMovHi => dsimp only [exec] at h; exact ends_thumbT5 h ends_thumbWriteAny
  | tCmpHi => dsimp only [exec] at h; exact ends_thumbT5 h ends_thumbCompare
  | tBx => exact ends_tBx h
  | tLdrPc => dsimp only [exec] at h; exact .thumbGate h (ends_thumbLoad (cpuRead_state _ _ _))
  | tLdrSp => dsimp only [exec] at h; exact .thumbGate h (ends_thumbLoad (loadRotated_state _ _))
  | tStrSp => dsimp only [exec] at h; exact .thumbGate h ends_thumbStore
  | tStrReg | tStrbReg => dsimp only [exec] at h; exact ends_thumbRegOffset h ends_thumbStore
  | tStrhReg => dsimp only [exec] at h; exact ends_thumbRegOffset h fun h => ends_thumbStore (unpredIf_next h)
  | tLdrReg => dsimp only [exec] at h; exact ends_thumbRegOffset h (ends_thumbLoad (loadRotated_state _ _))
  | tLdrbReg => dsimp only [exec] at h; exact ends_thumbRegOffset h (ends_thumbLoad (cpuRead_state _ _ _))
  | tLdsb => dsimp only [exec] at h; exact ends_thumbRegOffset h (ends_thumbLoad (loadByteSigned_state _ _))
  | tLdrhReg =>
    dsimp only [exec] at h
    exact ends_thumbRegOffset h fun h => ends_thumbLoad (loadHalfRotated_state _ _) (unpredIf_next h)
  | tLdsh =>
    dsimp only [exec] at h
    exact ends_thumbRegOffset h fun h => ends_thumbLoad (loadHalfSigned_state _ _) (unpredIf_next h)
  | tStrImm | tStrbImm => dsimp only [exec] at h; exact ends_thumbImmOffset h ends_thumbStore
  | tStrhImm => dsimp only [exec] at h; exact ends_thumbImmOffset h fun h => ends_thumbStore (unpredIf_next h)
  | tLdrImm => dsimp only [exec] at h; exact ends_thumbImmOffset h (ends_thumbLoad (loadRotated_state _ _))
  | tLdrbImm => dsimp only [exec] at h; exact ends_thumbImmOffset h (ends_thumbLoad (cpuRead_state _ _ _))
  | tLdrhImm =>
    dsimp only [exec] at h
    exact ends_thumbImmOffset h fun h => ends_thumbLoad (loadHalfRotated_state _ _) (unpredIf_next h)
  | tAddPc | tAddSp => dsimp only [exec] at h; exact .thumbGate h (ends_thumbWrite (low_ne _))
  | tAddSpImm => dsimp only [exec] at h; exact .thumbGate h (ends_thumbWrite (by decide))
  | tPush => exact ends_tPush h
  | tPop => exact ends_tPop h
  | tStmia => exact ends_tStmia h
  | tLdmia => exact ends_tLdmia h
  | tBCond => exact ends_tBCond h
  | tSwi => exact ends_raiseThumb (e := .softwareInterrupt) (.inr rfl) (thumbGate_next h)
  | tB => dsimp only [exec] at h; exact .thumbGate h ends_thumbBranch
  | tBlHi => exact ends_tBlHi h
  | tBlLo => exact ends_tBlLo h

-- The frames

section
variable {e : Exc} {link : Word} {s : State}

/-- An exception writes one general register, R14 of the mode it enters (R508). -/
theorem takeExceptionWithLink_gpr {k : Fin 30} (hk : k ≠ physReg e.mode regLR) :
    (takeExceptionWithLink e link s).gpr[k] = s.gpr[k] := by
  have other : (physReg e.mode regLR).val ≠ k.val := fun h => hk (Fin.ext h.symm)
  show ((s.setSpsr e.mode s.cpsr.saved).setRegOf e.mode regLR link).gpr[k] = s.gpr[k]
  rw [State.setRegOf_reg (by decide)]
  exact (Vector.getElem_set_ne (physReg e.mode regLR).isLt k.isLt other).trans (by simp)

end

/-- Settles O43: every instruction ends within its footprint, or by an exception, which leaves memory. -/
theorem memoryFrame : Obligations.MemoryFrame := by
  intro i s t h n hn
  cases exec_ends h with
  | ordinary within _ => exact within.mem n hn
  | raised e he link _ _ => rw [link, takeExceptionWithLink_mem, State.begun_mem]

/-- Settles O44: every instruction ends within its footprint, or by an exception, which writes R14 of the mode it
enters. -/
theorem registerFrame : Obligations.RegisterFrame := by
  intro i s t h k hk
  cases exec_ends h with
  | ordinary within _ => exact within.gpr k hk
  | raised e he link regs _ =>
    rw [link]
    exact takeExceptionWithLink_gpr fun same => hk (same ▸ regs)

/-- Settles O45: every instruction ends within its footprint, or by an exception, which leaves the devices, the
parameters and the fields of the iteration. -/
theorem statusFrame : Obligations.StatusFrame := by
  intro i s t h
  cases exec_ends h with
  | ordinary within _ => exact ⟨within.cpsr, within.control, within.saved, within.dev, within.fixed⟩
  | raised e he link _ status =>
    obtain ⟨cpsr, control, saved⟩ := status
    rw [link]
    exact ⟨fun h => absurd (cpsr.symm.trans h) (by decide), fun h => absurd (control.symm.trans h) (by decide),
      fun h => absurd (saved.symm.trans h) (by decide), by simp⟩

/-- Settles O21: an instruction that ends within its footprint keeps what User mode may not change, and any other raises
an exception. -/
theorem userModeIsolation : Obligations.UserModeIsolation := by
  intro i s t hu h
  cases exec_ends h with
  | ordinary within _ =>
    obtain ⟨mode, ⟨i, f⟩, spsr, gpr⟩ := within.user hu
    exact .inl ⟨mode.trans hu, i, f, spsr, gpr⟩
  | raised e he link _ _ => exact .inr ⟨e, he, link⟩

end Sys2Proof.Machine

/-!
PROOFS. The devices' part of an iteration (spec/60_exceptions.md sections 3 to 7, rules R24, R530): every advance leaves the
CPU as it is and keeps what the invariant says of memory and devices, until the poll takes an interrupt.
-/

namespace Sys2Proof.Machine

-- Advances

/-- The part of the invariant that speaks of the devices. -/
def Sound (d : Devices) : Prop := FifosBounded d ∧ DmaSound d

/-- An advance leaves the registers, the status and the pc, and keeps what the invariant says of memory and devices. -/
structure Advances (s t : State) : Prop where
  gpr : t.gpr = s.gpr
  pc : t.pc = s.pc
  cpsr : t.cpsr = s.cpsr
  spsr : t.spsr = s.spsr
  stored : Stored s → Stored t

theorem Advances.refl (s : State) : Advances s s := ⟨rfl, rfl, rfl, rfl, id⟩

theorem Advances.trans {s t u : State} (h : Advances s t) (k : Advances t u) : Advances s u :=
  ⟨k.gpr.trans h.gpr, k.pc.trans h.pc, k.cpsr.trans h.cpsr, k.spsr.trans h.spsr, k.stored ∘ h.stored⟩

/-- New devices that are sound where the old ones were. -/
theorem advances_setDev {s : State} {d : Devices} (h : Sound s.dev → Sound d) : Advances s (s.setDev d) :=
  ⟨rfl, rfl, rfl, rfl, fun ⟨wf, cells, fifos, dma⟩ => ⟨wf, cells, h ⟨fifos, dma⟩⟩⟩

theorem advances_busWrite (a : Word) (w : Width) (v : Word) (s : State) : Advances s (busWrite a w v s) :=
  ⟨by simp, by simp, by simp, by simp, busWrite_inv a w v s⟩

theorem advances_busRead (f : Bool) (a : Word) (w : Width) (s : State) : Advances s (busRead f a w s).2 :=
  ⟨by simp, by simp, by simp, by simp, fun h => by simpa [Stored] using h⟩

/-- What every round keeps, any number of rounds keeps. -/
theorem iterate_induction {α : Type} {P : α → Prop} {f : α → α} (h : ∀ a, P a → P (f a)) (k : Nat) {a : α} (ha : P a) :
    P (iterate f k a) := by
  induction k generalizing a with
  | zero => exact ha
  | succ k ih => exact ih (h a ha)

theorem advances_iterate {f : State → State} (h : ∀ s, Advances s (f s)) (k : Nat) (s : State) :
    Advances s (iterate f k s) :=
  iterate_induction (P := Advances s) (fun t ht => ht.trans (h t)) k (.refl s)

-- Timers

theorem advances_timerOverflow (n : Fin 4) (irq : Bool) (s : State) : Advances s (timerOverflow n irq s) := by
  refine advances_setDev fun h => ?_
  split <;> split <;> split <;> exact h

theorem advances_timerTick (n : Fin 4) (s : State) : Advances s (timerTick n s).1 := by
  unfold timerTick
  dsimp only
  split
  · exact (advances_setDev (s := s) (d := s.dev.setTimer n _) id).trans (advances_timerOverflow n _ _)
  · exact advances_setDev id

theorem advances_timerCycle (n : Fin 4) (cascade : Bool) (s : State) : Advances s (timerCycle n cascade s).1 := by
  unfold timerCycle
  dsimp only
  split
  · exact .refl s
  · split
    · split
      · exact advances_timerTick n s
      · exact .refl s
    · split
      · exact (advances_setDev (s := s) (d := s.dev.setTimer n _) id).trans (advances_timerTick n _)
      · exact advances_setDev id

theorem advances_timersCycle (s : State) : Advances s (timersCycle s) :=
  (((advances_timerCycle 0 _ s).trans (advances_timerCycle 1 _ _)).trans (advances_timerCycle 2 _ _)).trans
    (advances_timerCycle 3 _ _)

theorem advances_timersAdvance (cycles : Nat) (s : State) : Advances s (timersAdvance cycles s) :=
  advances_iterate advances_timersCycle cycles s

-- DMA

theorem Sound.setDma {d : Devices} (h : Sound d) {n : Fin 4} {c : DmaChannel} (hc : c.sound n) : Sound (d.setDma n c) :=
  ⟨h.1, DmaSound.set h.2 hc⟩

theorem advances_transferUnit (w : Width) (dSrc dDst : Word) (t : Transfer) :
    Advances t.machine (transferUnit w dSrc dDst t).machine :=
  (advances_busRead false (w.align t.src) w t.machine).trans (advances_busWrite _ _ _ _)

/-- The end of a transfer leaves the channel sound (R543). -/
theorem DmaChannel.finish_sound {c : DmaChannel} {n : Fin 4} (h : c.sound n) (src dst : Word) :
    (c.finish n src dst).sound n := by
  unfold DmaChannel.finish
  split
  · exact h
  · refine ⟨fun due => absurd due (by simp), ?_⟩
    show c.ctl &&& 0x7FFF &&& ~~~dmaCtlMask n = 0
    rw [BitVec.and_assoc, BitVec.and_comm 0x7FFF, ← BitVec.and_assoc, h.2]
    rfl

theorem advances_dmaRun (n : Fin 4) (s : State) : Advances s (dmaRun n s) := by
  have start : Advances s (s.setDev (s.dev.setDma n { s.dev.dma[n] with due := false })) :=
    advances_setDev fun h => h.setDma ⟨fun due => absurd due (by simp), (h.2 n).2⟩
  have units (w : Width) (a b : Word) (k : Nat) (t : Transfer) (ht : Advances s t.machine) :
      Advances s (iterate (transferUnit w a b) k t).machine :=
    iterate_induction (P := fun t => Advances s t.machine) (fun t ht => ht.trans (advances_transferUnit w a b t)) k ht
  refine (units _ _ _ _ _ start).trans (advances_setDev fun h => ?_)
  split <;> exact h.setDma (DmaChannel.finish_sound (h.2 n) _ _)

theorem advances_dmaRunDue (k : Nat) (s : State) : Advances s (dmaRunDue k s) := by
  induction k generalizing s with
  | zero => exact .refl s
  | succ k ih =>
    unfold dmaRunDue
    split
    · exact (advances_dmaRun _ s).trans (ih _)
    · exact .refl s

/-- A trigger makes due only armed channels (R542). -/
theorem Sound.trigger {d : Devices} (h : Sound d) (selects : Fin 4 → DmaChannel → Bool) : Sound (trigger selects d) := by
  refine ⟨?_, fun n => ?_⟩
  · rw [trigger_frame]
    exact h.1
  · rw [trigger_dma]
    refine ⟨fun due => ?_, (h.2 n).2⟩
    rcases Bool.or_eq_true_iff.mp due with was | made
    · exact (h.2 n).1 was
    · exact (Bool.and_eq_true_iff.mp made).1

-- PPU and APU

theorem Sound.request {d : Devices} (h : Sound d) (k : Nat) : Sound (d.request k) := h

theorem Sound.hblankEvent {d : Devices} (h : Sound d) : Sound (hblankEvent d) := by
  have triggered := h.trigger fun _ c => c.timing == 2
  unfold Machine.hblankEvent
  dsimp only
  split
  · exact triggered.request 1
  · exact triggered

theorem Sound.vblankEvent {d : Devices} (h : Sound d) : Sound (vblankEvent d) := by
  have triggered := h.trigger fun _ c => c.timing == 1
  unfold Machine.vblankEvent
  dsimp only
  split
  · exact triggered.request 0
  · exact triggered

theorem Sound.enterLine {d : Devices} (h : Sound d) : Sound (enterLine d) := by
  have entered : Sound (if d.ppu.line = 160 then Machine.vblankEvent d else d) := by
    split
    · exact h.vblankEvent
    · exact h
  unfold Machine.enterLine
  generalize (if d.ppu.line = 160 then Machine.vblankEvent d else d) = e at entered ⊢
  dsimp only
  split
  · exact entered.request 2
  · exact entered

theorem Sound.ppuCycle {d : Devices} (h : Sound d) : Sound (ppuCycle d) := by
  unfold Machine.ppuCycle nextDot
  split
  · split
    · exact Sound.enterLine h
    · dsimp only
      split
      · exact Sound.hblankEvent h
      · exact h
  · exact h

theorem advances_ppuAdvance (cycles : Nat) (s : State) : Advances s (ppuAdvance cycles s) :=
  advances_setDev fun h => iterate_induction (P := Sound) (fun _ hd => hd.ppuCycle) cycles h

theorem Fifo.pop_length (q : Fifo) (h : q.bytes.length ≤ 32) : q.pop.bytes.length ≤ 32 := by
  simp only [Fifo.pop, List.length_drop]
  omega

theorem Sound.drainA {d : Devices} (bus : Bus) (h : Sound d) : Sound (drainA bus d) := by
  have popped : Sound { d with fifoA := d.fifoA.pop } := ⟨⟨Fifo.pop_length _ h.1.1, h.1.2⟩, h.2⟩
  unfold Machine.drainA
  dsimp only
  split
  · exact popped.trigger _
  · exact popped

theorem Sound.drainB {d : Devices} (bus : Bus) (h : Sound d) : Sound (drainB bus d) := by
  have popped : Sound { d with fifoB := d.fifoB.pop } := ⟨⟨h.1.1, Fifo.pop_length _ h.1.2⟩, h.2⟩
  unfold Machine.drainB
  dsimp only
  split
  · exact popped.trigger _
  · exact popped

theorem advances_apuAdvance (s : State) : Advances s (apuAdvance s) := by
  unfold apuAdvance
  split
  · refine advances_setDev fun h => ?_
    have drainedA : Sound (iterate (Machine.drainA s.bus) s.dev.fifoA.drains s.dev) :=
      iterate_induction (P := Sound) (fun _ hd => hd.drainA _) _ h
    have drained := iterate_induction (P := Sound) (fun _ hd => hd.drainB s.bus) s.dev.fifoB.drains drainedA
    exact drained
  · exact advances_setDev id

-- The poll and the whole advance

theorem advances_wake_keypadPoll (s : State) : Advances s (wake (keypadPoll s)) := by
  have keypad : Advances s (keypadPoll s) := by
    unfold keypadPoll
    split
    · exact advances_setDev id
    · exact .refl s
  refine keypad.trans ?_
  unfold wake
  split
  · exact advances_setDev id
  · exact .refl _

/-- An interrupt taken after an advance is, for the CPU, the one taken before it (R508). -/
theorem takeException_of_advances {s t : State} (h : Advances s t) (e : Exc) :
    (takeException e t).gpr = (takeException e s).gpr ∧ (takeException e t).pc = (takeException e s).pc ∧
      (takeException e t).cpsr = (takeException e s).cpsr ∧ (takeException e t).spsr = (takeException e s).spsr := by
  obtain ⟨gpr, pc, cpsr, spsr, _⟩ := h
  cases s
  cases t
  subst gpr pc cpsr spsr
  cases e <;> exact ⟨rfl, rfl, rfl, rfl⟩

/-- How the devices' part of an iteration ends: as an advance, or by an interrupt taken after one. -/
inductive Polled (s t : State) : Prop
  | advanced (h : Advances s t)
  | interrupted (e : Exc) (he : e = .irq ∨ e = .fiq) (u : State) (h : Advances s u) (ht : Advances (takeException e u) t)

theorem polled_finishIteration {s t : State} (cycles : Nat) (h : Advances s t) : Polled s (finishIteration cycles t) := by
  have devices : Advances s (wake (keypadPoll (apuAdvance (ppuAdvance cycles t)))) :=
    ((h.trans (advances_ppuAdvance cycles t)).trans (advances_apuAdvance _)).trans (advances_wake_keypadPoll _)
  unfold finishIteration poll
  dsimp only
  split
  · exact .interrupted .fiq (.inr rfl) _ devices ⟨rfl, rfl, rfl, rfl, id⟩
  · split
    · exact .interrupted .irq (.inl rfl) _ devices ⟨rfl, rfl, rfl, rfl, id⟩
    · exact .advanced (devices.trans ⟨rfl, rfl, rfl, rfl, id⟩)

theorem polled_dmaPhase {s t : State} (cycles : Nat) (h : Advances s t) : Polled s (dmaPhase cycles t) := by
  have run := h.trans (advances_dmaRunDue dmaBurst t)
  unfold dmaPhase
  dsimp only
  split
  · exact polled_finishIteration cycles run
  · exact .advanced (run.trans ⟨rfl, rfl, rfl, rfl, id⟩)

theorem polled_advanceDevices (s : State) : Polled s (advanceDevices s) :=
  polled_dmaPhase _ (advances_timersAdvance _ s)

/-- Settles O59: an advance leaves the CPU, and the interrupt taken after one is that of the state before it. -/
theorem devicesTouchCpuByInterrupt : Obligations.DevicesTouchCpuByInterrupt := by
  intro s t h
  have polled : Polled s t := by
    rcases h with rfl | ⟨cycles, rfl⟩
    · exact polled_advanceDevices s
    · exact polled_dmaPhase cycles (.refl s)
  cases polled with
  | advanced h => exact .inl ⟨h.gpr, h.pc, h.cpsr, h.spsr⟩
  | interrupted e he u h ht =>
    obtain ⟨gpr, pc, cpsr, spsr⟩ := takeException_of_advances h e
    exact .inr ⟨e, he, ht.gpr.trans gpr, ht.pc.trans pc, ht.cpsr.trans cpsr, ht.spsr.trans spsr⟩

-- The invariant

theorem inv_iff (s : State) : Inv s ↔ PcAligned s ∧ Stored s :=
  ⟨fun h => ⟨h.pc, h.mem, h.cells, h.fifos, h.dma⟩, fun ⟨pc, mem, cells, fifos, dma⟩ => ⟨pc, mem, cells, fifos, dma⟩⟩

theorem Advances.inv {s t : State} (h : Advances s t) (hs : Inv s) : Inv t := by
  rw [inv_iff] at hs ⊢
  refine ⟨?_, h.stored hs.2⟩
  unfold PcAligned
  rw [h.pc, h.cpsr]
  exact hs.1

/-- An exception enters ARM state at an aligned vector and leaves memory and devices (R506, R508). -/
theorem takeExceptionWithLink_inv (e : Exc) (link : Word) {s : State} (hs : Inv s) : Inv (takeExceptionWithLink e link s) := by
  rw [inv_iff] at hs ⊢
  refine ⟨?_, ?_⟩
  · show alignFor false e.vector = e.vector
    cases e <;> decide
  · unfold Stored
    rw [takeExceptionWithLink_mem, takeExceptionWithLink_dev]
    exact hs.2

theorem Polled.inv {s t : State} (h : Polled s t) (hs : Inv s) : Inv t := by
  cases h with
  | advanced h => exact h.inv hs
  | interrupted e he u h ht => exact ht.inv (takeExceptionWithLink_inv e _ (h.inv hs))

theorem Ends.inv {thumb : Bool} {f : Footprint} {s t : State} (h : Ends thumb f s t) (ht : s.cpsr.t = thumb) (hs : Inv s) :
    Inv t := by
  cases h with
  | ordinary within lands =>
    rw [inv_iff] at hs ⊢
    exact ⟨lands hs.1 ht, within.stored hs.2⟩
  | raised e he link _ _ =>
    rw [link]
    exact takeExceptionWithLink_inv e _ ⟨hs.pc, hs.mem, hs.cells, hs.fifos, hs.dma⟩

/-- The set of the code fetched is that of `CPSR.T` (R45). -/
theorem fetch_thumb (s : State) :
    (∃ h, (fetch s).1 = .thumb h) ∧ s.cpsr.t = true ∨ (∃ w, (fetch s).1 = .arm w) ∧ s.cpsr.t = false := by
  unfold fetch
  cases ht : s.cpsr.t
  · exact .inr ⟨⟨_, rfl⟩, rfl⟩
  · exact .inl ⟨⟨_, rfl⟩, rfl⟩

theorem isThumb_of_fetch {s : State} {i : Instr} (h : decode (fetch s).1 = .ok i) : s.cpsr.t = isThumb i := by
  have code : encode i = (fetch s).1 := decodedWordEncodesBack _ _ h
  unfold isThumb
  rcases fetch_thumb s with ⟨⟨h, hc⟩, ht⟩ | ⟨⟨w, hc⟩, ht⟩ <;> rw [code, hc, ht]

theorem undecoded_ends {s t u : State} (h : undecoded (fetch s).1 u = .next t) :
    Ends s.cpsr.t (raiseFootprint .und) u t := by
  rcases fetch_thumb s with ⟨⟨_, hc⟩, ht⟩ | ⟨⟨_, hc⟩, ht⟩
  · rw [hc] at h
    rw [ht]
    exact ends_raiseThumb (e := .undefined) (.inl rfl) (thumbGate_next h)
  · rw [hc] at h
    rw [ht]
    exact ends_raisingArm (e := .undefined) (.inl rfl) h

/-- A CPU step keeps the invariant. -/
theorem cpuStep_inv {s t : State} (h : cpuStep s = .next t) (hs : Inv s) : Inv t := by
  obtain ⟨d, hd⟩ := fetch_state s
  have fetched : Inv (fetch s).2 := by
    rw [hd]
    exact ⟨hs.pc, hs.mem, hs.cells, hs.fifos, hs.dma⟩
  have set : (fetch s).2.cpsr.t = s.cpsr.t := by rw [hd]
  unfold cpuStep at h
  dsimp only at h
  split at h
  next i hi => exact (exec_ends h).inv (set.trans (isThumb_of_fetch hi)) fetched
  next => exact (undecoded_ends h).inv set fetched

/-- Settles O60: the CPU step keeps the invariant, and so do an advance of the devices and the interrupt after it. -/
theorem stepKeepsInvariant : Obligations.StepKeepsInvariant := by
  intro s t hs h
  unfold step at h
  split at h
  next cycles _ =>
    cases h
    exact (polled_dmaPhase cycles (.refl s)).inv hs
  next =>
    split at h
    next =>
      cases h
      exact (polled_advanceDevices s).inv hs
    next =>
      split at h
      next u hu =>
        cases h
        exact (polled_advanceDevices u).inv (cpuStep_inv hu hs)
      next => cases h
      next => cases h

-- One step, and the reset states

/-- Settles O6: the cases of `step`, and of the CPU step in it. -/
theorem stepRunsDecoded : Obligations.StepRunsDecoded := by
  refine ⟨fun s resume running => ⟨fun i hi => ?decoded, fun e he => ?rejected⟩, fun s resume halted => ?halted,
    fun s cycles resume => ?resumed⟩
  case decoded =>
    have cpu : cpuStep s = exec i (fetch s).2 := by simp only [cpuStep, hi]
    simp only [step, resume, running, cpu] <;> rfl
  case rejected =>
    have cpu : cpuStep s = undecoded (fetch s).1 (fetch s).2 := by simp only [cpuStep, he]
    simp only [step, resume, running, cpu] <;> rfl
  case halted => simp only [step, resume, halted, if_true]
  case resumed => simp only [step, resume]

/-- The images lie in the storage of the BIOS and of the cartridge ROM (R88). -/
theorem imagesMemory_cells (bios : Option (Vector Byte 0x4000)) (rom : List Byte) : CellsStored (imagesMemory bios rom) := by
  intro c hc
  rcases List.mem_append.mp hc with inBios | inRom
  · cases bios with
    | none => cases inBios
    | some image =>
      obtain ⟨_, above, _⟩ := imageCells_mem inBios
      exact ⟨.bios, c.1, by simpa [regionSize] using above, by simp [regionBase]⟩
  · obtain ⟨below, above, _⟩ := imageCells_mem inRom
    rw [List.length_take] at above
    exact ⟨.rom, c.1 - 0x08000000, by simp only [regionSize]; omega, by simp only [regionBase]; omega⟩

theorem Devices.reset_sound : Sound Devices.reset := ⟨⟨by decide, by decide⟩, by unfold DmaSound; decide⟩

theorem State.resetWith_inv (p : Params) (bios : Option (Vector Byte 0x4000)) (rom : List Byte) :
    Inv (State.resetWith p bios rom) := by
  refine ⟨?_, imagesMemory_wf bios rom, imagesMemory_cells bios rom, Devices.reset_sound.1, Devices.reset_sound.2⟩
  show alignFor (resetCpsr p.directBoot).t (if p.directBoot then 0x08000000 else 0x00000000) =
    if p.directBoot then 0x08000000 else 0x00000000
  cases p.directBoot <;> decide

/-- Settles O10: the pc of reset is word-aligned, the images lie in their regions' storage, and the devices are at rest. -/
theorem resetMeetsInvariant : Obligations.ResetMeetsInvariant :=
  ⟨State.resetWith_inv _ none [], State.resetWith_inv⟩

-- The reset to the vector

/-- A byte that is not listed reads as one (R602). -/
theorem Memory.read_of_not_listed {m : Memory} {n : Nat} (h : ∀ c ∈ m, c.1 ≠ n) : m.read n = Memory.unlisted := by
  induction m with
  | nil => rfl
  | cons c rest ih =>
    rw [Memory.read_cons, if_neg (h c (by simp)), ih fun c hc => h c (List.mem_cons_of_mem _ hc)]

/-- The cells of one image are read where the other has none. -/
theorem Memory.read_append_left {m k : Memory} {n : Nat} (h : ∀ c ∈ k, c.1 ≠ n) : Memory.read (m ++ k) n = m.read n := by
  rw [Memory.read_append]
  split
  · rfl
  · next none => rw [Memory.read_of_not_listed h, Memory.read_of_not_listed fun c hc e => none ⟨c, hc, e⟩]

theorem Memory.read_append_right {m k : Memory} {n : Nat} (h : ∀ c ∈ m, c.1 ≠ n) : Memory.read (m ++ k) n = k.read n := by
  rw [Memory.read_append, if_neg (by rintro ⟨c, hc, e⟩; exact h c hc e)]

/-- The BIOS image is read at its own bytes (R88). -/
theorem imagesMemory_read_bios (image : Vector Byte 0x4000) (rom : List Byte) (k : Fin 0x4000) :
    (imagesMemory (some image) rom).read k.val = image[k] := by
  have hk : k.val < 0x4000 := k.isLt
  unfold imagesMemory
  rw [Memory.read_append_left fun c hc e => by have := (imageCells_mem hc).1; omega, imageCells_read,
    if_pos ⟨Nat.zero_le _, by simp⟩, Nat.sub_zero]
  simp [List.getD_eq_getElem?_getD]

/-- Below the cartridge ROM and past the BIOS, reset memory reads 0 (R602). -/
theorem imagesMemory_read_ram (bios : Option (Vector Byte 0x4000)) (rom : List Byte) {n : Nat} (h1 : 0x4000 ≤ n)
    (h2 : n < 0x08000000) : (imagesMemory bios rom).read n = 0 := by
  unfold imagesMemory
  rw [Memory.read_append_left fun c hc e => by have := (imageCells_mem hc).1; omega]
  cases bios with
  | none => rfl
  | some image =>
    refine Memory.read_of_not_listed fun c hc e => ?_
    have := (imageCells_mem hc).2.1
    simp only [Vector.length_toList] at this
    omega

/-- The cartridge image is read at its own bytes (R88). -/
theorem imagesMemory_read_rom (bios : Option (Vector Byte 0x4000)) (rom : List Byte) {k : Nat}
    (hk : k < min rom.length 0x2000000) : rom[k]? = some ((imagesMemory bios rom).read (0x08000000 + k)) := by
  have below : k < (rom.take 0x2000000).length := by rw [List.length_take]; omega
  have value : (imageCells 0x08000000 (rom.take 0x2000000)).read (0x08000000 + k) = rom[k]'(by omega) := by
    rw [imageCells_read, if_pos ⟨by omega, by omega⟩, Nat.add_sub_cancel_left, List.getD_eq_getElem?_getD,
      List.getElem?_eq_getElem below, List.getElem_take]
    rfl
  rw [List.getElem?_eq_getElem (by omega), ← value]
  congr 1
  unfold imagesMemory
  cases bios with
  | none => rfl
  | some image =>
    refine (Memory.read_append_right fun c hc e => ?_).symm
    have := (imageCells_mem hc).2.1
    simp only [Vector.length_toList] at this
    omega
/-- Past the I/O registers nothing is listed (R580). -/
theorem ioRegAt_past {off : Nat} (h : 0x302 ≤ off) : ioRegAt off = (.openBus, 0) := by
  unfold ioRegAt
  repeat rw [if_neg (by omega)]

/-- The place of a byte of a register, by the table of R580. -/
theorem ioRegAt_place {off k : Nat} {r : IoReg} (h : ioRegAt off = (r, k)) :
    (r = .dispstat → off = 4 + k ∧ k < 2) ∧ (r = .keyinput → off = 0x130 + k ∧ k < 2) ∧
      (r = .plain ∨ r = .soundCntH → 0x400 ≤ off → False) := by
  by_cases past : 0x302 ≤ off
  · rw [ioRegAt_past past] at h
    cases h
    simp
  · have all : ∀ off : Fin 0x302, ((ioRegAt off).1 = .dispstat → off.val = 4 + (ioRegAt off).2 ∧ (ioRegAt off).2 < 2) ∧
        ((ioRegAt off).1 = .keyinput → off.val = 0x130 + (ioRegAt off).2 ∧ (ioRegAt off).2 < 2) := by decide +kernel
    obtain ⟨dispstat, keyinput⟩ := all ⟨off, by omega⟩
    rw [h] at dispstat keyinput
    exact ⟨dispstat, keyinput, fun _ big => by omega⟩

/-- A byte of plain storage reads 0 after reset (R602). -/
theorem imagesMemory_read_io (bios : Option (Vector Byte 0x4000)) (rom : List Byte) {off k : Nat} {r : IoReg}
    (h : ioRegAt off = (r, k)) (hr : r = .plain ∨ r = .soundCntH) : (imagesMemory bios rom).read (ioCell off) = 0 := by
  have inside : off < 0x400 := Nat.lt_of_not_le ((ioRegAt_place h).2.2 hr)
  exact imagesMemory_read_ram bios rom (by unfold ioCell; omega) (by unfold ioCell; omega)

theorem getByte_zero {n : Nat} (k : Nat) : getByte (0 : BitVec n) k = 0 := by simp [getByte]

theorem Devices.reset_timers (n : Fin 4) : Devices.reset.timers[n].counter = 0 ∧ Devices.reset.timers[n].reload = 0 ∧
    Devices.reset.timers[n].ctlHalf = 0 ∧ Devices.reset.timers[n].count = 0 := by revert n; decide

theorem Devices.reset_dma (n : Fin 4) :
    Devices.reset.dma[n] = ⟨0, 0, 0, 0, 0, 0, 0, false⟩ ∧ Devices.reset.dma[n].armed = false := by revert n; decide

/-- What a readable byte of I/O other than `DISPSTAT` and `KEYINPUT` holds after reset (R580, R600). -/
theorem ioRead_reset_zero {p : Params} {bios : Option (Vector Byte 0x4000)} {rom : List Byte} {off k : Nat} {r : IoReg}
    {b : Byte} (h : ioRead (State.resetWith p bios rom) off = some b) (hr : ioRegAt off = (r, k)) (hd : r ≠ .dispstat)
    (hk : r ≠ .keyinput) : b = 0 := by
  unfold ioRead at h
  rw [hr] at h
  cases r with
  | dispstat => exact absurd rfl hd
  | keyinput => exact absurd rfl hk
  | plain => exact (Option.some.inj h).symm.trans (imagesMemory_read_io bios rom hr (.inl rfl))
  | soundCntH => exact (Option.some.inj h).symm.trans (imagesMemory_read_io bios rom hr (.inr rfl))
  | keycnt =>
    have value : Devices.reset.keycnt.half = 0 := by decide
    exact (Option.some.inj h).symm.trans ((congrArg (getByte · k) value).trans (getByte_zero (n := 16) k))
  | vcount | ie | iflags | ime => exact (Option.some.inj h).symm.trans (getByte_zero (n := 16) k)
  | dmaCntH n | tmCntL n | tmCntH n =>
    refine (Option.some.inj h).symm.trans ?_
    simp [State.resetWith, Devices.reset, Timer.ctlHalf, getByte]
  | imeUnused => exact (Option.some.inj h).symm
  | fifoA | fifoB | dmaSad | dmaDad | dmaCntL | haltcnt | openBus => cases h

/-- Every readable byte of I/O after reset but those of `KEYINPUT` (R580, R600). -/
theorem ioRead_reset {p : Params} {bios : Option (Vector Byte 0x4000)} {rom : List Byte} {off : Nat} {b : Byte}
    (h : ioRead (State.resetWith p bios rom) off = some b) (h0 : off ≠ 0x130) (h1 : off ≠ 0x131) :
    b = if off = 4 then 4 else 0 := by
  rcases hr : ioRegAt off with ⟨r, k⟩
  obtain ⟨dispstat, keyinput, _⟩ := ioRegAt_place hr
  have notKeys : r ≠ .keyinput := fun e => by have := keyinput e; omega
  by_cases hd : r = .dispstat
  · obtain ⟨place, small⟩ := dispstat hd
    subst place hd
    unfold ioRead at h
    rw [hr] at h
    rw [← Option.some.inj h]
    show getByte Devices.reset.dispstatHalf k = _
    interval_cases k <;> decide
  · have not4 : off ≠ 4 := by
      rintro rfl
      cases hr
      exact hd rfl
    rw [if_neg not4]
    exact ioRead_reset_zero h hr hd notKeys

/-- The cells of the I/O region are those of its addresses (R88). -/
theorem inIo_cell_iff (bus : Bus) (a : Word) : InIo (cell bus a) ↔ region bus a = .io := by
  constructor
  · rintro ⟨low, high⟩
    have offset := regionOffset_lt (bus := bus) (a := a)
    unfold cell at low high
    cases hr : region bus a with
    | io => rfl
    | save | unmapped =>
      rw [hr] at high
      simp only [regionBase] at high
      omega
    | _ =>
      rw [hr] at low high offset
      simp only [regionBase, regionSize] at low high offset
      have := offset (by decide)
      omega
  · intro io
    have : regionOffset bus a < 0x400 := regionOffset_io io
    rw [cell_io io]
    exact ⟨by unfold ioCell; omega, by unfold ioCell; omega⟩

/-- The host's reset clears the cells of the I/O region and leaves the others (R601, R602). -/
theorem read_hostReset (m : Memory) (n : Nat) :
    Memory.read (m.filter fun c => !isIoCell c) n = if isIoCell (n, 0) then 0 else m.read n := by
  induction m with
  | nil => simp [Memory.unlisted]
  | cons c rest ih =>
    have same : c.1 = n → isIoCell c = isIoCell (n, 0) := by rintro rfl; rfl
    by_cases hc : isIoCell c = true
    · rw [List.filter_cons_of_neg (by simp [hc]), ih, Memory.read_cons]
      by_cases hn : c.1 = n
      · rw [if_pos (by rw [← same hn, hc]), if_pos (by rw [← same hn, hc])]
      · rw [if_neg hn]
    · rw [List.filter_cons_of_pos (by simp [hc]), Memory.read_cons, ih, Memory.read_cons]
      by_cases hn : c.1 = n
      · rw [if_pos hn, if_pos hn, if_neg (by rw [← same hn]; exact hc)]
      · rw [if_neg hn, if_neg hn]

/-- Settles O8: the devices of reset are at rest, memory holds the images and nothing in the I/O region, and the host's
reset clears that region. -/
theorem resetToVector : Obligations.ResetToVector := by
  refine ⟨fun p bios rom vector => ?reset, fun p bios rom => ?images, fun s => ?host⟩
  case reset =>
    intro s
    refine ⟨by simp [s, State.resetWith, vector], by simp [s, State.resetWith, resetCpsr, vector]; decide, rfl, rfl, rfl,
      rfl, rfl, rfl, Devices.reset_timers, Devices.reset_dma, rfl, rfl, rfl, rfl, rfl, rfl, rfl, rfl, rfl, ?_, fun off hr => ?_,
      fun off b h h0 h1 => ioRead_reset h h0 h1⟩
    · exact (BitVec.setWidth_eq_append (by decide)).symm
    · rcases h : ioRegAt off with ⟨r, k⟩
      rw [h] at hr
      have value := imagesMemory_read_io bios rom h hr
      unfold ioRead
      rw [h]
      rcases hr with hr | hr <;> subst hr <;> exact congrArg some value
  case images =>
    intro s
    refine ⟨rfl, ?_, fun k hk => imagesMemory_read_rom bios rom hk⟩
    rintro image rfl k
    exact imagesMemory_read_bios image rom k
  case host =>
    intro t r
    refine ⟨rfl, rfl, rfl, rfl, rfl, rfl, rfl, rfl, fun a => ?_⟩
    have io : isIoCell (cell s.bus a, 0) = true ↔ region s.bus a = .io := by
      rw [← inIo_cell_iff]
      simp [isIoCell, InIo]
    simp only [byteAt, ← io]
    exact read_hostReset s.mem (cell s.bus a)

end Sys2Proof.Machine

/-!
PROOFS. The data-processing instructions (spec/40_arm_dataproc.md rules R212 to R235): the sixteen operations by exact
integers, and the template of R213 behind the gate of each of the 48 instructions.
-/

namespace Sys2Proof.Machine

/-- Settles O13: an addition is a sum of exact integers, and a subtraction a difference. -/
theorem aluOperations : Obligations.AluOperations := by
  intro n b p
  have difference (a b : Word) : addWithCarry a (~~~b) true = ⟨a - b, noBorrow a b true, overflowSub a b true⟩ :=
    (addWithCarry_not_eq_difference a b true).trans (congrArg (AluResult.mk · _ _) (BitVec.sub_zero _))
  have sum (a b : Word) : addWithCarry a b false = ⟨a + b, carryOf a b false, overflowOf a b false⟩ :=
    (addWithCarry_eq_sum a b false).trans (congrArg (AluResult.mk · _ _) (BitVec.add_zero _))
  exact ⟨rfl, rfl, difference _ _, difference _ _, sum _ _, addWithCarry_eq_sum _ _ _,
    addWithCarry_not_eq_difference _ _ _, addWithCarry_not_eq_difference _ _ _, rfl, rfl, difference _ _, sum _ _, rfl,
    rfl, rfl, rfl⟩

-- The three operand forms

section
variable {op : DpOp} {c : Cond} {sf : Bool} {sbz : BitVec 4} {rn rd rs rm : Reg} {s : State}

theorem exec_dpImm {rot : BitVec 4} {imm8 : BitVec 8} (h : Runs (dpImmInstr op c sf sbz rn rd rot imm8) s) :
    exec (dpImmInstr op c sf sbz rn rd rot imm8) s =
      dpFinish op sf rd (s.armX rn) (immShifted rot imm8 s.cpsr.c) s.begun := by
  cases op <;> exact h.armGate_eq rfl _ _

theorem exec_dpRsi {amt : BitVec 5} {sh : Shift} (h : Runs (dpRsiInstr op c sf sbz rn rd amt sh rm) s) :
    exec (dpRsiInstr op c sf sbz rn rd amt sh rm) s =
      dpFinish op sf rd (s.armX rn) (shiftByImm sh (s.armX rm) amt s.cpsr.c) s.begun := by
  cases op <;> exact h.armGate_eq rfl _ _

theorem exec_dpRsr {sh : Shift} (h : Runs (dpRsrInstr op c sf sbz rn rd rs sh rm) s) :
    exec (dpRsrInstr op c sf sbz rn rd rs sh rm) s =
      stopIf (rs == 15) .dpRegshiftRsPc (unpredIf s.begun (regShiftPc op rn rd rm) .dpRegshiftPc
        (dpFinish op sf rd (s.armX12 rn) (shiftByReg sh (s.armX12 rm) (lowByte (s.x rs)) s.cpsr.c) s.begun)) := by
  cases op <;> exact h.armGate_eq rfl _ _

/-- The register-shift form where no register is R15, or where the machine does not stop at it (R212). -/
theorem exec_dpRsr_run {sh : Shift} (h : Runs (dpRsrInstr op c sf sbz rn rd rs sh rm) s) (hs : rs ≠ 15)
    (free : s.strict = false ∨ regShiftPc op rn rd rm = false) :
    exec (dpRsrInstr op c sf sbz rn rd rs sh rm) s =
      dpFinish op sf rd (s.armX12 rn) (shiftByReg sh (s.armX12 rm) (lowByte (s.x rs)) s.cpsr.c) s.begun := by
  rw [exec_dpRsr h, stopIf_neg (by simpa using hs), (unpredIf_cases s.begun _ _ _).1 free]

end

-- The template of R213

section
variable {op : DpOp} {sf : Bool} {rd : Reg} {n : Word} {b : Shifted} {s : State}

/-- A result in a register other than R15, or in the flags alone (R213). -/
theorem dpFinish_reg (hd : op.writesRd = true → rd ≠ 15) :
    dpFinish op sf rd n b s.begun = .next (dpAfter op sf rd (op.apply n b s.cpsr) s) := by
  unfold dpFinish dpAfter setsFlags
  cases hw : op.writesRd
  · cases sf <;> rfl
  · rw [if_pos rfl, if_neg (hd hw), if_pos rfl, State.setX_reg (hd hw)]
    cases sf <;> rfl

/-- With S = 0 a result in R15 is a branch to the word-aligned address (R213). -/
theorem dpFinish_jump (hw : op.writesRd = true)
    (free : s.strict = false ∨ align4 (op.apply n b s.cpsr).value = (op.apply n b s.cpsr).value) :
    dpFinish op false 15 n b s.begun = .next (after s s.gpr s.cpsr (align4 (op.apply n b s.cpsr).value)) := by
  have jump : dpFinish op false 15 n b s.begun = dpJump (op.apply n b s.cpsr).value s.begun := by simp [dpFinish, hw]
  rw [jump, dpJump, (unpredIf_cases s.begun _ _ _).1 (free.imp_right fun aligned => by simp [aligned])]
  rfl

/-- The exception return of a mode with an SPSR that holds a mode (R511). -/
theorem returnFromException_eq {k : Unpredictable} {v : Word} {p : Psr} {q : Cpsr} (hp : s.spsrOf s.cpsr.mode = some p)
    (hq : p.restored = some q) : returnFromException k v s = .ok ((s.setCpsr q).setPc (alignFor q.t v)) := by
  simp only [returnFromException, restoreCpsr, hp, hq, State.setCpsr_cpsr]

/-- With S = 1 a result in R15 is an exception return (R213, R511). -/
theorem dpFinish_return (hw : op.writesRd = true) {p : Psr} {q : Cpsr} (hp : s.spsrOf s.cpsr.mode = some p)
    (hq : p.restored = some q)
    (free : s.strict = false ∨ alignFor q.t (op.apply n b s.cpsr).value = (op.apply n b s.cpsr).value) :
    dpFinish op true 15 n b s.begun = .next (after s s.gpr q (alignFor q.t (op.apply n b s.cpsr).value)) := by
  have ret : dpFinish op true 15 n b s.begun = dpReturn (op.apply n b s.cpsr).value s.begun := by simp [dpFinish, hw]
  have restored : returnFromException .dpSPcNospsr (op.apply n b s.cpsr).value s.begun = _ :=
    returnFromException_eq (s := s.begun) hp hq
  rw [ret, dpReturn, restored]
  exact (unpredIf_cases s.begun _ _ _).1 (free.imp_right fun aligned => by simp [aligned])

end

/-- Settles O16: each of the three forms is the template of R213 behind its gate. -/
theorem dataProcessingResults : Obligations.DataProcessingResults := by
  refine fun op c sf sbz rn rd s hd => ⟨fun rot imm8 h => ?imm, fun amt sh rm h => ?rsi, fun rs sh rm h hs free => ?rsr⟩
  case imm => rw [exec_dpImm h, dpFinish_reg hd]
  case rsi => rw [exec_dpRsi h, dpFinish_reg hd]
  case rsr =>
    have noPc (e : (op.readsRn = true → rn ≠ 15) ∧ rm ≠ 15) : regShiftPc op rn rd rm = false := by
      obtain ⟨hn, hm⟩ := e
      have none_pc : ((op.readsRn = true → rn ≠ 15) ∧ (op.writesRd = true → rd ≠ 15)) ∧ rm ≠ 15 := ⟨⟨hn, hd⟩, hm⟩
      simpa [regShiftPc] using none_pc
    rw [exec_dpRsr_run h hs (free.imp_right noPc), dpFinish_reg hd]

/-- Settles O17: a result in R15 is a branch or an exception return, in each of the three forms. -/
theorem dataProcessingToPc : Obligations.DataProcessingToPc := by
  refine fun op c sbz rn s hw => ⟨fun rot imm8 => ⟨fun h free => ?_, fun p q h hp hq free => ?_⟩,
    fun amt sh rm => ⟨fun h free => ?_, fun p q h hp hq free => ?_⟩,
    fun rs sh rm lenient hs => ⟨fun h => ?_, fun p q h hp hq => ?_⟩⟩
  · rw [exec_dpImm h, dpFinish_jump hw free]
  · rw [exec_dpImm h, dpFinish_return hw hp hq free]
  · rw [exec_dpRsi h, dpFinish_jump hw free]
  · rw [exec_dpRsi h, dpFinish_return hw hp hq free]
  · rw [exec_dpRsr_run h hs (.inl lenient), dpFinish_jump hw (.inl lenient)]
  · rw [exec_dpRsr_run h hs (.inl lenient), dpFinish_return hw hp hq (.inl lenient)]

/-!
PROOFS. MRS and MSR (spec/41_arm_multiply_psr_swap.md rules R280 to R283): a status word bit by bit, and the write
procedure as a choice, for the control byte and for the flags, between the operand's bits and the old ones.
-/

-- Status words

/-- A status word bit by bit (R50, R55). -/
theorem getLsbD_statusWord (n z c v i f t : Bool) (m : BitVec 5) {k : Nat} (hk : k < 32) :
    (statusWord n z c v i f t m).getLsbD k =
      if k < 5 then m.getLsbD k
      else if k < 28 then (k == 5 && t) || (k == 6 && f) || (k == 7 && i)
      else (k == 28 && v) || (k == 29 && c) || (k == 30 && z) || (k == 31 && n) := by
  unfold statusWord
  simp only [BitVec.getLsbD_append, BitVec.getLsbD_ofBool, BitVec.getLsbD_zero]
  interval_cases k <;> simp

/-- Bits 27:8 of a status word are zero (R55). -/
theorem statusWord_reserved (n z c v i f t : Bool) (m : BitVec 5) : statusWord n z c v i f t m &&& 0x0FFFFF00#32 = 0 := by
  refine BitVec.eq_of_getLsbD_eq fun k hk => ?_
  rw [BitVec.getLsbD_and, getLsbD_statusWord _ _ _ _ _ _ _ _ hk]
  interval_cases k <;> simp

/-- The bits of a status word that an MSR selects: the control byte and the flags (R281). -/
def msrMask (flags control : Bool) : Word := (if control then 0xFF#32 else 0) ||| (if flags then 0xF0000000#32 else 0)

/-- A status word with the flags, the control byte or both taken from a word (R281). -/
theorem statusWord_written (flags control : Bool) (w : Word) (n z c v i f t : Bool) (m : BitVec 5) :
    statusWord (if flags then w.getLsbD 31 else n) (if flags then w.getLsbD 30 else z)
        (if flags then w.getLsbD 29 else c) (if flags then w.getLsbD 28 else v) (if control then w.getLsbD 7 else i)
        (if control then w.getLsbD 6 else f) (if control then w.getLsbD 5 else t)
        (if control then w.extractLsb' 0 5 else m) =
      (statusWord n z c v i f t m &&& ~~~msrMask flags control) ||| (w &&& msrMask flags control) := by
  refine BitVec.eq_of_getLsbD_eq fun k hk => ?_
  unfold msrMask
  cases flags <;> cases control <;>
    simp only [BitVec.getLsbD_or, BitVec.getLsbD_and, BitVec.getLsbD_not, getLsbD_statusWord _ _ _ _ _ _ _ _ hk] <;>
    interval_cases k <;> simp

theorem Mode.bits_of_ofBits {b : BitVec 5} {m : Mode} (h : Mode.ofBits b = some m) : m.bits = b := by
  revert b; cases m <;> decide

-- MRS

section
variable {c : Cond} {r : Bool} {sbo sbzA sbzC : BitVec 4} {sbzB : BitVec 2} {rd : Reg} {s : State}

/-- What an MRS that runs does, by the status register it reads (R280). -/
theorem exec_mrs (h : Runs (.mrs c r sbo rd sbzA sbzB sbzC) s) :
    exec (.mrs c r sbo rd sbzA sbzB sbzC) s = stopIf (rd == 15) .mrsPc
      (if r then
        match s.spsrOf s.cpsr.mode with
        | none => .fault (.unpredictable .mrsSpsrNospsr)
        | some p => .next (s.begun.setX rd p.toWord).nextArm
      else .next (s.begun.setX rd s.cpsr.toWord).nextArm) := h.armGate_eq rfl _ _

theorem setX_nextArm_begun (hd : rd ≠ 15) (v : Word) :
    (s.begun.setX rd v).nextArm = after s (regsWith s rd v) s.cpsr (s.pc + 4) := by
  unfold State.nextArm
  rw [State.setX_pc hd, setX_setPc_begun hd]
  rfl

end

/-- Settles O19: an MRS writes the word of the status register it reads, whose reserved bits are zero. -/
theorem mrsReadsStatus : Obligations.MrsReadsStatus := by
  intro c r sbo rd sbzA sbzB sbzC s h
  rw [exec_mrs h]
  refine ⟨fun hr hd => ?cpsr, fun p hr hd hp => ?spsr, fun hr hd hm => ?none, fun hd => ?pc, fun p => ?zero⟩
  case cpsr => rw [stopIf_neg (by simpa using hd), hr, setX_nextArm_begun hd]; rfl
  case spsr => rw [stopIf_neg (by simpa using hd), hr, hp]; simp only [setX_nextArm_begun hd, if_true]
  case none => rw [stopIf_neg (by simpa using hd), hr, (State.spsrOf_eq_none_iff s _).mpr hm]; rfl
  case pc => exact stopIf_pos (by simpa using hd) _ _
  case zero => exact ⟨statusWord_reserved .., statusWord_reserved ..⟩

-- MSR

/-- What an MSR of the CPSR leaves in it, where its control byte names a mode (R281). -/
def Cpsr.msr (p : Cpsr) (flags control : Bool) (w : Word) (m : Mode) : Cpsr where
  n := if flags then w.getLsbD 31 else p.n
  z := if flags then w.getLsbD 30 else p.z
  c := if flags then w.getLsbD 29 else p.c
  v := if flags then w.getLsbD 28 else p.v
  i := if control then w.getLsbD 7 else p.i
  f := if control then w.getLsbD 6 else p.f
  t := if control then w.getLsbD 5 else p.t
  mode := if control then m else p.mode

theorem Cpsr.toWord_msr (p : Cpsr) (flags control : Bool) (w : Word) {m : Mode}
    (hm : control = true → Mode.ofBits (w.extractLsb' 0 5) = some m) :
    (p.msr flags control w m).toWord = (p.toWord &&& ~~~msrMask flags control) ||| (w &&& msrMask flags control) := by
  rw [Cpsr.toWord, Cpsr.toWord, ← statusWord_written]
  cases control
  · rfl
  · show statusWord _ _ _ _ _ _ _ m.bits = _
    rw [Mode.bits_of_ofBits (hm rfl)]
    rfl

theorem Psr.toWord_msr (p : Psr) (mask : BitVec 4) (w : Word) :
    (p.msr mask w).toWord =
      (p.toWord &&& ~~~msrMask (mask.getLsbD 3) (mask.getLsbD 0)) |||
        (w &&& msrMask (mask.getLsbD 3) (mask.getLsbD 0)) := by
  rw [Psr.toWord, Psr.toWord, ← statusWord_written]
  unfold Psr.msr
  cases mask.getLsbD 3 <;> cases mask.getLsbD 0 <;> rfl

section
variable {mask : BitVec 4} {w : Word} {s : State}

/-- The control byte is written outside User mode (R281). -/
def writesControl (mask : BitVec 4) (s : State) : Bool := mask.getLsbD 0 && s.cpsr.mode.privileged

theorem writesControl_iff : writesControl mask s = true ↔ mask.getLsbD 0 = true ∧ s.cpsr.mode ≠ .usr := by
  simp [writesControl, Mode.privileged]

/-- An MSR of the CPSR that stops nowhere (R281). -/
theorem msrWrite_cpsr {m : Mode} (ht : writesControl mask s = true → w.getLsbD 5 = s.cpsr.t)
    (hm : writesControl mask s = true → Mode.ofBits (w.extractLsb' 0 5) = some m) :
    msrWrite false mask w s.begun =
      .next (after s s.gpr (s.cpsr.msr (mask.getLsbD 3) (writesControl mask s) w m) (s.pc + 4)) := by
  have control : (if writesControl mask s then msrControl w s.begun else .ok s.begun) =
      .ok (s.begun.setCpsr (s.cpsr.msr false (writesControl mask s) w m)) := by
    cases hc : writesControl mask s
    · rfl
    · have same : (w.getLsbD 5 != s.begun.cpsr.t) = false := by simpa using ht hc
      simp only [msrControl, same, hm hc, if_true]
      rfl
  show orFault (if writesControl mask s then msrControl w s.begun else .ok s.begun) _ = _
  rw [control]
  cases mask.getLsbD 3 <;> rfl

/-- An MSR of the CPSR that changes T, or writes a value of M that is no mode (R281). -/
theorem msrWrite_stops (hc : writesControl mask s = true) :
    (w.getLsbD 5 ≠ s.cpsr.t → msrWrite false mask w s.begun = .fault (.unpredictable .msrT)) ∧
    (w.getLsbD 5 = s.cpsr.t → Mode.ofBits (w.extractLsb' 0 5) = none →
      msrWrite false mask w s.begun = .fault (.unpredictable .badMode)) := by
  constructor
  · intro ht
    have change : (w.getLsbD 5 != s.begun.cpsr.t) = true := by simpa using ht
    show orFault (if writesControl mask s then msrControl w s.begun else .ok s.begun) _ = _
    rw [if_pos hc]
    simp only [msrControl, change, if_true]
    rfl
  · intro ht hm
    have same : (w.getLsbD 5 != s.begun.cpsr.t) = false := by simpa using ht
    show orFault (if writesControl mask s then msrControl w s.begun else .ok s.begun) _ = _
    rw [if_pos hc]
    simp only [msrControl, same, hm]
    rfl

/-- The bits an MSR of the CPSR writes: the field's that the mode allows (R281). -/
theorem msrMask_eq_allowed (mask : BitVec 4) (s : State) :
    msrMask (mask.getLsbD 3) (writesControl mask s) =
      msrMask (mask.getLsbD 3) (mask.getLsbD 0) &&& if s.cpsr.mode = .usr then 0xF0000000#32 else 0xF00000FF#32 := by
  unfold writesControl
  cases mask.getLsbD 3 <;> cases mask.getLsbD 0 <;> cases s.cpsr.mode <;> rfl

end

/-- An MSR that runs is its write procedure with its operand (R282, R283). -/
theorem exec_msr {i : Instr} {c : Cond} {r : Bool} {mask sbo : BitVec 4} {w : Word} {s : State}
    (form : (∃ sbzA sbzB rm, rm ≠ 15 ∧ i = .msrReg c r mask sbo sbzA sbzB rm ∧ w = s.x rm) ∨
      (∃ rot imm8, i = .msrImm c r mask sbo rot imm8 ∧ w = (immShifted rot imm8 s.cpsr.c).value))
    (h : Runs i s) : exec i s = msrWrite r mask w s.begun := by
  rcases form with ⟨sbzA, sbzB, rm, hm, rfl, rfl⟩ | ⟨rot, imm8, rfl, rfl⟩
  · have gate : exec (.msrReg c r mask sbo sbzA sbzB rm) s =
        stopIf (rm == 15) .msrPc (msrWrite r mask (s.x rm) s.begun) := h.armGate_eq rfl _ _
    rw [gate, stopIf_neg (by simpa using hm)]
  · exact h.armGate_eq rfl _ _

/-- Settles O20: an MSR is its write procedure, which takes the selected bits of the status word from the operand. -/
theorem msrWritesStatus : Obligations.MsrWritesStatus := by
  refine ⟨fun i c r mask sbo w s form h => ?_, fun c r mask sbo sbzA sbzB s h => ?_⟩
  · rw [exec_msr form h]
    intro field allowed
    refine ⟨fun hr h0 hu ht => ?changesT, fun hr h0 hu ht hm => ?badMode, fun hr ok => ?cpsr, fun p hr hp => ?spsr,
      fun hr hm => ?noSpsr⟩
    case changesT => rw [hr, (msrWrite_stops (writesControl_iff.mpr ⟨h0, hu⟩)).1 ht]
    case badMode => rw [hr, (msrWrite_stops (writesControl_iff.mpr ⟨h0, hu⟩)).2 ht hm]
    case cpsr =>
      have named : ∃ m, writesControl mask s = true → Mode.ofBits (w.extractLsb' 0 5) = some m := by
        cases hm : Mode.ofBits (w.extractLsb' 0 5) with
        | some m => exact ⟨m, fun _ => rfl⟩
        | none =>
          refine ⟨.usr, fun hc => ?_⟩
          obtain ⟨h0, hu⟩ := writesControl_iff.mp hc
          exact absurd hm (ok h0 hu).2
      obtain ⟨m, hm⟩ := named
      have keepsT (hc : writesControl mask s = true) : w.getLsbD 5 = s.cpsr.t := by
        obtain ⟨h0, hu⟩ := writesControl_iff.mp hc
        exact (ok h0 hu).1
      refine ⟨_, hr ▸ msrWrite_cpsr keepsT hm, ?_⟩
      rw [Cpsr.toWord_msr _ _ _ _ hm, msrMask_eq_allowed, ← BitVec.and_assoc]
      rfl
    case spsr =>
      refine ⟨p.msr mask w, ?_, Psr.toWord_msr p mask w⟩
      have write : msrWrite true mask w s.begun = .next (s.begun.setSpsr s.cpsr.mode (p.msr mask w)).nextArm := by
        have hp : s.begun.spsrOf s.begun.cpsr.mode = some p := hp
        simp only [msrWrite, hp, if_true]
        rfl
      rw [hr, write]
      unfold State.setSpsr
      split <;> rfl
    case noSpsr =>
      have none : s.begun.spsrOf s.begun.cpsr.mode = none := (State.spsrOf_eq_none_iff s _).mpr hm
      rw [hr]
      simp only [msrWrite, none, if_true]
  · exact h.armGate_eq rfl _ _

end Sys2Proof.Machine

/-!
PROOFS. The default map and the bytes of an access (spec/20_memory.md sections 2 to 4): an aligned access lies in one
region, at consecutive places, so that a read or write of RAM is one of each byte.
-/

namespace Sys2Proof.Machine

-- The default map

/-- The default map as the chain of its ranges (R88). -/
theorem region_gba_eq (a : Word) : region Bus.gba a =
    if a.toNat ≤ 0x00003FFF then .bios else if a.toNat ≤ 0x01FFFFFF then .unmapped
    else if a.toNat ≤ 0x02FFFFFF then .ewram else if a.toNat ≤ 0x03FFFFFF then .iwram
    else if a.toNat ≤ 0x040003FF then .io else if a.toNat ≤ 0x04FFFFFF then .unmapped
    else if a.toNat ≤ 0x05FFFFFF then .palette else if a.toNat ≤ 0x06FFFFFF then .vram
    else if a.toNat ≤ 0x07FFFFFF then .oam else if a.toNat ≤ 0x0DFFFFFF then .rom
    else if a.toNat ≤ 0x0FFFFFFF then .save else .unmapped := by
  rcases region_gba_cases a with ⟨r, hr, h1, h2, h⟩ | ⟨none, h⟩
  · rw [h]
    simp only [Bus.gba, List.mem_cons, List.not_mem_nil, or_false] at hr
    rcases hr with rfl | rfl | rfl | rfl | rfl | rfl | rfl | rfl | rfl | rfl | rfl <;> dsimp only at * <;> grind
  · rw [h]
    simp only [Bus.gba, List.forall_mem_cons] at none
    grind

/-- An address of a region that one row of the default map has lies in that row's range. -/
theorem range_of_region_gba {r : MapRow} (only : ∀ q ∈ Bus.gba, q.region = r.region → q = r) (mapped : r.region ≠ .unmapped)
    {a : Word} (h : region Bus.gba a = r.region) : r.first ≤ a.toNat ∧ a.toNat ≤ r.last := by
  rcases region_gba_cases a with ⟨q, hq, h1, h2, e⟩ | ⟨-, e⟩
  · obtain rfl := only q hq (e.symm.trans h)
    exact ⟨h1, h2⟩
  · exact absurd (h.symm.trans e) mapped

/-- Where a region's cells lie below: the bytes of its storage, or the addresses it spans. -/
def regionSpan (r : Region) : Nat :=
  match r with
  | .save => 0x2000000
  | .unmapped => 0x100000000
  | r => regionSize r

theorem regionOffset_gba_lt (a : Word) : regionOffset Bus.gba a < regionSpan (region Bus.gba a) := by
  by_cases stored : regionSize (region Bus.gba a) ≠ 0
  · refine (regionOffset_lt stored).trans_le ?_
    have span : ∀ r : Region, regionSize r ≠ 0 → regionSize r ≤ regionSpan r := by
      intro r
      cases r <;> decide
    exact span _ stored
  · rcases region_gba_cases a with ⟨r, hr, h1, h2, h⟩ | ⟨none, h⟩
    · have save : r = ⟨0x0E000000, 0x0FFFFFFF, .save, 0⟩ := by
        rw [h] at stored
        have all : ∀ q ∈ Bus.gba, ¬regionSize q.region ≠ 0 → q = ⟨0x0E000000, 0x0FFFFFFF, .save, 0⟩ := by decide
        exact all r hr stored
      subst save
      rw [h]
      unfold regionOffset
      rw [busRow_gba hr ⟨h1, h2⟩]
      simp only [regionPlace, regionSpan] at *
      omega
    · have row : busRow Bus.gba a = Option.none := by
        unfold busRow
        exact List.find?_eq_none.mpr fun r hr => by simpa using fun h1 => not_le.mp fun h2 => none r hr ⟨h1, h2⟩
      rw [h]
      unfold regionOffset
      rw [row]
      exact a.isLt

/-- The regions of the default map hold their bytes apart. -/
theorem region_eq_of_cell_gba {a b : Word} (h : cell Bus.gba a = cell Bus.gba b) :
    region Bus.gba a = region Bus.gba b := by
  have la := regionOffset_gba_lt a
  have lb := regionOffset_gba_lt b
  unfold cell at h
  generalize region Bus.gba a = r at *
  generalize region Bus.gba b = q at *
  cases r <;> cases q <;> simp only [regionBase, regionSpan, regionSize] at h la lb <;> grind

theorem cell_gba {a : Word} (stored : regionSize (region Bus.gba a) ≠ 0) :
    cell Bus.gba a = regionBase (region Bus.gba a) + regionPlace (region Bus.gba a) a.toNat := by
  rw [cell, regionOffset_gba stored]

/-- Two addresses of a region with storage share a byte exactly where they reach one place (R88). -/
theorem cell_gba_eq_iff {a b : Word} {r : Region} (stored : regionSize r ≠ 0) (ha : region Bus.gba a = r)
    (hb : region Bus.gba b = r) : cell Bus.gba a = cell Bus.gba b ↔ regionPlace r a.toNat = regionPlace r b.toNat := by
  rw [cell_gba (ha ▸ stored), cell_gba (hb ▸ stored), ha, hb, Nat.add_left_cancel_iff]

/-- BIOS and I/O have no mirror (R88). -/
theorem cell_gba_inj {a b : Word} (h : region Bus.gba a = .bios ∨ region Bus.gba a = .io) :
    cell Bus.gba a = cell Bus.gba b ↔ a = b := by
  refine ⟨fun e => ?_, fun e => e ▸ rfl⟩
  have regions := region_eq_of_cell_gba e
  rcases h with h | h
  · have rangeA := range_of_region_gba (r := ⟨0, 0x3FFF, .bios, 0⟩) (by decide) (by decide) h
    have rangeB := range_of_region_gba (r := ⟨0, 0x3FFF, .bios, 0⟩) (by decide) (by decide) (regions.symm.trans h)
    rw [cell_gba_eq_iff (r := .bios) (by decide) h (regions.symm.trans h)] at e
    simp only [regionPlace] at *
    exact BitVec.eq_of_toNat_eq (by omega)
  · have rangeA := range_of_region_gba (r := ⟨0x04000000, 0x040003FF, .io, 0⟩) (by decide) (by decide) h
    have rangeB :=
      range_of_region_gba (r := ⟨0x04000000, 0x040003FF, .io, 0⟩) (by decide) (by decide) (regions.symm.trans h)
    rw [cell_gba_eq_iff (r := .io) (by decide) h (regions.symm.trans h)] at e
    simp only [regionPlace] at *
    exact BitVec.eq_of_toNat_eq (by omega)

/-- Settles O47: the map is the chain of its ranges, and cells of one region are equal where their places are. -/
theorem mirrorsShareStorage : Obligations.MirrorsShareStorage := by
  refine ⟨region_gba_eq, fun a b => ?_, fun r bus a => ⟨rfl, fun held => ?_, fun past => ?_⟩⟩
  · refine ⟨fun ha hb => cell_gba_eq_iff (by decide) ha hb, fun ha hb => cell_gba_eq_iff (by decide) ha hb,
      fun ha hb => cell_gba_eq_iff (by decide) ha hb, fun ha hb => cell_gba_eq_iff (by decide) ha hb,
      fun ha hb => cell_gba_eq_iff (by decide) ha hb, fun ha hb => ?_, cell_gba_inj,
      fun apart e => apart (region_eq_of_cell_gba e)⟩
    rw [cell_gba_eq_iff (by decide) ha hb]
    simp only [regionPlace, vramFold]
    split <;> split <;> omega
  · unfold region
    rw [busRow_cons, if_pos held]
  · unfold cell regionOffset region
    rw [busRow_cons, if_neg past]
    exact ⟨rfl, rfl⟩

-- The bytes of an aligned access

section
variable {a : Word} {w : Width} {k : Nat}

theorem Width.align_eq_iff : w.align a = a ↔ a.toNat % w.bytes = 0 := by
  rw [← BitVec.toNat_inj, Width.align_toNat]
  cases w <;> simp only [Width.bytes] <;> omega

theorem Width.align_align (w : Width) (a : Word) : w.align (w.align a) = w.align a :=
  Width.align_eq_iff.mpr (by rw [Width.align_toNat, Nat.mul_mod_left])

/-- The bytes of an aligned access do not wrap around the address space. -/
theorem toNat_add_of_aligned (ha : w.align a = a) (hk : k < w.bytes) :
    (a + BitVec.ofNat 32 k).toNat = a.toNat + k := by
  rw [Width.align_eq_iff] at ha
  have range := a.isLt
  cases w <;> simp only [Width.bytes] at * <;> bv_omega

/-- The bytes of an aligned access are of one region: the ranges of the map are whole words (R88). -/
theorem region_gba_add (ha : w.align a = a) (hk : k < w.bytes) :
    region Bus.gba (a + BitVec.ofNat 32 k) = region Bus.gba a := by
  have within {n : Nat} (hn : n % 4 = 3) : (a + BitVec.ofNat 32 k).toNat ≤ n ↔ a.toNat ≤ n := by
    rw [toNat_add_of_aligned ha hk]
    rw [Width.align_eq_iff] at ha
    cases w <;> simp only [Width.bytes] at * <;> omega
  rw [region_gba_eq, region_gba_eq]
  simp only [within]

theorem regionPlace_add (r : Region) {x : Nat} (hx : x % w.bytes = 0) (hk : k < w.bytes) :
    regionPlace r (x + k) = regionPlace r x + k := by
  cases r with
  | vram =>
    cases w <;> simp only [regionPlace, vramFold, Width.bytes] at *
    all_goals split <;> split <;> omega
  | _ => cases w <;> simp only [regionPlace, Width.bytes] at * <;> omega

/-- The bytes of an aligned access lie side by side. -/
theorem cell_gba_add (stored : regionSize (region Bus.gba a) ≠ 0) (ha : w.align a = a) (hk : k < w.bytes) :
    cell Bus.gba (a + BitVec.ofNat 32 k) = cell Bus.gba a + k := by
  have region := region_gba_add ha hk
  rw [cell_gba (region ▸ stored), cell_gba stored, region, toNat_add_of_aligned ha hk,
    regionPlace_add _ (Width.align_eq_iff.mp ha) hk, Nat.add_assoc]

/-- An address is a byte of the aligned access that holds it. -/
theorem Width.align_add_mod (w : Width) (a : Word) : w.align a + BitVec.ofNat 32 (a.toNat % w.bytes) = a := by
  have value := w.align_toNat a
  have range := a.isLt
  cases w <;> simp only [Width.bytes] at * <;> bv_omega

theorem region_gba_align (w : Width) (a : Word) : region Bus.gba (w.align a) = region Bus.gba a := by
  have same := region_gba_add (w.align_align a) (Nat.mod_lt a.toNat (show 0 < w.bytes by cases w <;> decide))
  rw [w.align_add_mod] at same
  exact same.symm

theorem isRam_size {r : Region} : isRam r = true → regionSize r ≠ 0 := by cases r <;> decide

end

-- Reads of held bytes

section
variable {a : Word} {w : Width} {s : State} {f : Bool}

theorem readByte_ram (h : isRam (region s.bus a) = true) (f : Bool) : readByte f a s = (byteAt s a, s) := by
  unfold readByte
  cases hr : region s.bus a <;> simp only [hr, isRam, Bool.false_eq_true] at h <;> rfl

theorem readByte_rom (h : region s.bus a = .rom) (held : regionOffset s.bus a < s.params.romSize) (f : Bool) :
    readByte f a s = (byteAt s a, s) := by
  unfold readByte
  rw [h]
  exact if_pos held

theorem readByte_bios (h : region s.bus a = .bios) (image : s.params.biosImage = true) :
    readByte true a s = (byteAt s a, s) := by
  unfold readByte
  rw [h, image]
  rfl

/-- An access each of whose bytes is held reads those bytes (R82). -/
theorem busRead_eq_valueAt
    (held : ∀ k < w.bytes, readByte f (a + BitVec.ofNat 32 k) s = (byteAt s (a + BitVec.ofNat 32 k), s)) :
    busRead f a w s = (valueAt s w a, s) := by
  have first : readByte f a s = (byteAt s a, s) := by simpa using held 0 (by cases w <;> decide)
  cases w with
  | byte => simp only [busRead, first, valueAt]
  | half =>
    have second : readByte f (a + 1) s = (byteAt s (a + 1), s) := held 1 (by decide)
    simp only [busRead, first, second, valueAt]
  | word =>
    have second : readByte f (a + 1) s = (byteAt s (a + 1), s) := held 1 (by decide)
    have third : readByte f (a + 2) s = (byteAt s (a + 2), s) := held 2 (by decide)
    have fourth : readByte f (a + 3) s = (byteAt s (a + 3), s) := held 3 (by decide)
    simp only [busRead, first, second, third, fourth, valueAt]

/-- An aligned access of RAM reads its bytes, and one of ROM within its image, and one of the BIOS from within it. -/
theorem busRead_held (gba : s.bus = Bus.gba) (ha : w.align a = a)
    (held : isRam (region s.bus a) = true ∨
      (region s.bus a = .rom ∧ a.toNat % 0x2000000 + w.bytes ≤ s.params.romSize) ∨
      (region s.bus a = .bios ∧ f = true ∧ s.params.biosImage = true)) :
    busRead f a w s = (valueAt s w a, s) := by
  refine busRead_eq_valueAt fun k hk => ?_
  have region : region s.bus (a + BitVec.ofNat 32 k) = region s.bus a := by rw [gba]; exact region_gba_add ha hk
  rcases held with ram | ⟨rom, image⟩ | ⟨bios, rfl, image⟩
  · exact readByte_ram (by rw [region, ram]) f
  · refine readByte_rom (region.trans rom) ?_ f
    have stored : regionSize (Machine.region Bus.gba (a + BitVec.ofNat 32 k)) ≠ 0 := by rw [← gba, region, rom]; decide
    have offset : regionOffset s.bus (a + BitVec.ofNat 32 k) = a.toNat % 0x2000000 + k := by
      rw [gba, regionOffset_gba stored, ← gba, region, rom, toNat_add_of_aligned ha hk]
      exact regionPlace_add .rom (Width.align_eq_iff.mp ha) hk
    omega
  · exact readByte_bios (region.trans bios) image

/-- An aligned CPU read of RAM gives its bytes and changes nothing (R82, R89). -/
theorem cpuRead_ram (gba : s.bus = Bus.gba) (ha : w.align a = a) (ram : isRam (region s.bus a) = true) :
    cpuRead a w s = (valueAt s w a, s) := busRead_held gba ha (.inl ram)

end

-- Writes of RAM

/-- The first `n` bytes of a write, in ascending order (R82). -/
def writeBytes (a v : Word) (n : Nat) (s : State) : State :=
  match n with
  | 0 => s
  | k + 1 => writeByte (a + BitVec.ofNat 32 k) (getByte v k) (writeBytes a v k s)

section
variable {a : Word} {w : Width} {s : State}

/-- A write is one of each of its bytes, where no byte rule applies (R82, R90). -/
theorem busWrite_eq_writeBytes (single : w = .byte → byteWriteAt a s = .single) (v : Word) :
    busWrite a w v s = writeBytes a v w.bytes s := by
  have first : writeByte a (getByte v 0) s = writeByte (a + BitVec.ofNat 32 0) (getByte v 0) s := by rw [BitVec.add_zero]
  cases w with
  | byte =>
    rw [show busWrite a .byte v s = writeByte a (getByte v 0) s by simp only [busWrite, single rfl], first]
    rfl
  | half =>
    rw [show busWrite a .half v s = writeByte (a + 1) (getByte v 1) (writeByte a (getByte v 0) s) from rfl, first]
    rfl
  | word =>
    rw [show busWrite a .word v s = writeByte (a + 3) (getByte v 3) (writeByte (a + 2) (getByte v 2)
      (writeByte (a + 1) (getByte v 1) (writeByte a (getByte v 0) s))) from rfl, first]
    rfl

theorem writeByte_ram (h : isRam (region s.bus a) = true) (b : Byte) :
    writeByte a b s = s.setMem (s.mem.write (cell s.bus a) b) := by
  unfold writeByte
  cases hr : region s.bus a <;> simp only [hr, isRam, Bool.false_eq_true] at h <;> rfl

theorem byteAt_writeByte (h : isRam (region s.bus a) = true) (b : Byte) (c : Word) :
    byteAt (writeByte a b s) c = if cell s.bus c = cell s.bus a then b else byteAt s c := by
  rw [writeByte_ram h]
  refine (Memory.read_write _ _ _ _).trans ?_
  simp only [eq_comm]
  rfl

/-- What an aligned write of RAM whose bytes are all stored leaves: each byte of the value at its place, every other byte
and all beside memory (R82, R89). -/
theorem busWrite_ram (gba : s.bus = Bus.gba) (ram : isRam (region s.bus a) = true) (ha : w.align a = a)
    (single : w = .byte → byteWriteAt a s = .single) (v : Word) :
    (∀ k < w.bytes, byteAt (busWrite a w v s) (a + BitVec.ofNat 32 k) = getByte v k) ∧
    (∀ b : Word, (∀ k < w.bytes, cell s.bus b ≠ cell s.bus (a + BitVec.ofNat 32 k)) →
      byteAt (busWrite a w v s) b = byteAt s b) ∧
    busWrite a w v s = s.setMem (busWrite a w v s).mem := by
  have ramAt {k : Nat} (hk : k < w.bytes) : isRam (region s.bus (a + BitVec.ofNat 32 k)) = true := by
    rw [gba] at ram ⊢
    rw [region_gba_add ha hk, ram]
  have place {k : Nat} (hk : k < w.bytes) : cell s.bus (a + BitVec.ofNat 32 k) = cell s.bus a + k := by
    rw [gba] at ram ⊢
    exact cell_gba_add (isRam_size ram) ha hk
  rw [busWrite_eq_writeBytes single]
  suffices prefixes : ∀ n ≤ w.bytes,
      (∀ k < n, byteAt (writeBytes a v n s) (a + BitVec.ofNat 32 k) = getByte v k) ∧
      (∀ b : Word, (∀ k < n, cell s.bus b ≠ cell s.bus (a + BitVec.ofNat 32 k)) →
        byteAt (writeBytes a v n s) b = byteAt s b) ∧
      writeBytes a v n s = s.setMem (writeBytes a v n s).mem from prefixes w.bytes le_rfl
  intro n hn
  induction n with
  | zero => exact ⟨fun k hk => absurd hk k.not_lt_zero, fun b _ => rfl, rfl⟩
  | succ n ih =>
    obtain ⟨stored, kept, frame⟩ := ih (by omega)
    have bus : (writeBytes a v n s).bus = s.bus := by rw [frame]; rfl
    have write (b : Word) : byteAt (writeBytes a v (n + 1) s) b =
        if cell s.bus b = cell s.bus (a + BitVec.ofNat 32 n) then getByte v n else byteAt (writeBytes a v n s) b := by
      rw [← bus]
      exact byteAt_writeByte (by rw [bus]; exact ramAt hn) _ b
    refine ⟨fun k hk => ?_, fun b apart => ?_, ?_⟩
    · rw [write, place hn, place (by omega)]
      rcases Nat.lt_succ_iff_lt_or_eq.mp hk with hk | rfl
      · rw [if_neg (by omega), stored k hk]
      · rw [if_pos rfl]
    · rw [write, if_neg (apart n (by omega)), kept b fun k hk => apart k (by omega)]
    · rw [writeBytes, writeByte_ram (by rw [bus]; exact ramAt hn), frame]
      rfl

end

-- The value of the bytes

/-- The bits of a value that an access of a width moves (R82). -/
def Width.mask (w : Width) : Word := if w = .byte then 0xFF#32 else if w = .half then 0xFFFF#32 else 0xFFFFFFFF#32

/-- Masking keeps the lowest bits. -/
theorem setWidth_extract_eq_and (v : Word) (n : Nat) :
    (v.extractLsb' 0 n).setWidth 32 = v &&& (BitVec.allOnes n).setWidth 32 := by
  ext i hi
  by_cases low : i < n <;> simp [low, BitVec.getLsbD_eq_getElem hi]

theorem getByte_append (v : Word) : getByte v 1 ++ getByte v 0 = v.extractLsb' 0 16 :=
  BitVec.extractLsb'_append_extractLsb'_eq_extractLsb' (x := v) (start₁ := 0) (len₁ := 8) (len₂ := 8) rfl

theorem getByte_append_word (v : Word) : getByte v 3 ++ getByte v 2 ++ getByte v 1 ++ getByte v 0 = v := by
  ext i hi
  simp only [getByte, BitVec.getElem_append, BitVec.getElem_extractLsb']
  split
  · exact (congrArg v.getLsbD (by omega)).trans (BitVec.getLsbD_eq_getElem hi)
  · split
    · exact (congrArg v.getLsbD (by omega)).trans (BitVec.getLsbD_eq_getElem hi)
    · split <;> exact (congrArg v.getLsbD (by omega)).trans (BitVec.getLsbD_eq_getElem hi)

/-- The bytes of a value below a width make the value's lowest bits (R82). -/
theorem valueAt_eq_of_bytes {a v : Word} {w : Width} {s : State}
    (bytes : ∀ k < w.bytes, byteAt s (a + BitVec.ofNat 32 k) = getByte v k) : valueAt s w a = v &&& w.mask := by
  have first : byteAt s a = getByte v 0 := by simpa using bytes 0 (by cases w <;> decide)
  cases w with
  | byte =>
    simp only [valueAt, first]
    exact setWidth_extract_eq_and v 8
  | half =>
    have second : byteAt s (a + 1) = getByte v 1 := bytes 1 (by decide)
    simp only [valueAt, first, second, getByte_append]
    exact setWidth_extract_eq_and v 16
  | word =>
    have second : byteAt s (a + 1) = getByte v 1 := bytes 1 (by decide)
    have third : byteAt s (a + 2) = getByte v 2 := bytes 2 (by decide)
    have fourth : byteAt s (a + 3) = getByte v 3 := bytes 3 (by decide)
    simp only [valueAt, first, second, third, fourth]
    exact (getByte_append_word v).trans (BitVec.and_allOnes (x := v)).symm

/-- Settles O46: aligned accesses of RAM are those of their bytes. -/
theorem ramReadsAndWrites : Obligations.RamReadsAndWrites := by
  refine ⟨fun a s ram => ?_, fun a w s gba ha held => ?_, fun a v w s gba ram ha single => ?_, fun s gba => ?_⟩
  · exact congrArg (fun r : Byte × State => (r.1.zeroExtend 32, r.2)) (readByte_ram ram s.inBios)
  · refine busRead_held gba ha (held.imp_right (Or.imp_right ?_))
    rintro ⟨bios, inBios, image⟩
    exact ⟨bios, by simpa [State.inBios] using inBios, image⟩
  · have single' (hw : w = .byte) : byteWriteAt a s = .single := by
      unfold byteWriteAt
      rcases single hw with h | h <;> rw [h]
    obtain ⟨stored, kept, frame⟩ := busWrite_ram gba ram ha single' v
    exact ⟨valueAt_eq_of_bytes stored, kept, by rw [frame]; rfl, by rw [frame]; rfl,
      by rw [frame]; rfl⟩
  · intro holds
    have read {w : Width} (h : holds w.bytes) :
        busRead s.inBios (w.align s.pc) w s = (valueAt s w (w.align s.pc), s) := by
      have region : region s.bus (w.align s.pc) = region s.bus s.pc := by rw [gba]; exact region_gba_align w s.pc
      refine busRead_held gba (w.align_align s.pc) ?_
      rw [region]
      rcases h with ram | ⟨bios, image⟩ | ⟨rom, image⟩
      · exact .inl ram
      · exact .inr (.inr ⟨bios, by simp [State.inBios, bios], image⟩)
      · refine .inr (.inl ⟨rom, ?_⟩)
        rw [w.align_toNat]
        cases w <;> simp only [Width.bytes] at * <;> omega
    refine ⟨fun arm held => ?_, fun thumb held => ?_⟩
    · have word : busRead s.inBios (align4 s.pc) .word s = _ := read (w := .word) held
      simp only [fetch, arm, word]
      rfl
    · have half : busRead s.inBios (align2 s.pc) .half s = _ := read (w := .half) held
      simp only [fetch, thumb, half]
      rfl

/-!
PROOFS. What no plain storage holds (spec/20_memory.md sections 3 and 4): the byte writes of video memory, the reads of
open bus, and the writes that are ignored.
-/

-- Byte writes of video memory

section
variable {a v : Word} {s : State}

theorem objStart_eq (s : State) : s.objStart =
    if 3 ≤ (s.mem.read 0x04000000).toNat % 8 ∧ (s.mem.read 0x04000000).toNat % 8 ≤ 5 then 0x14000 else 0x10000 := by
  have mode : ((s.mem.read (ioCell 0)).extractLsb' 0 3).toNat = (s.mem.read 0x04000000).toNat % 8 := by
    rw [BitVec.extractLsb'_toNat, Nat.shiftRight_zero]
    rfl
  unfold State.objStart
  simp only [mode, Bool.and_eq_true, decide_eq_true_eq]

/-- A byte twice is its value times 0x101, and each of its bytes the byte. -/
theorem doubled_byte : ∀ b : Byte, (b ++ b).zeroExtend 32 = b.zeroExtend 32 * 0x101#32 ∧
    getByte ((b ++ b).zeroExtend 32) 0 = b ∧ getByte ((b ++ b).zeroExtend 32) 1 = b := by decide

/-- A doubled byte is a halfword write (R90). -/
theorem busWrite_both (both : byteWriteAt a s = .both) (v : Word) :
    busWrite a .byte v s = busWrite (align2 a) .half ((getByte v 0 ++ getByte v 0).zeroExtend 32) s := by
  obtain ⟨-, low, high⟩ := doubled_byte (getByte v 0)
  simp only [busWrite, both, low, high]

/-- A byte that is doubled: what its halfword then holds, and every other byte as before (R90). -/
theorem busWrite_doubled (gba : s.bus = Bus.gba) (ram : isRam (region s.bus a) = true) (both : byteWriteAt a s = .both)
    (v : Word) :
    valueAt (busWrite a .byte v s) .half (align2 a) = (v &&& 0xFF#32) * 0x101#32 ∧
    ∀ b : Word, cell s.bus b ≠ cell s.bus (align2 a) → cell s.bus b ≠ cell s.bus (align2 a + 1) →
      byteAt (busWrite a .byte v s) b = byteAt s b := by
  have ram' : isRam (region s.bus (align2 a)) = true := by
    rw [gba] at ram ⊢
    exact (congrArg isRam (region_gba_align .half a)).trans ram
  obtain ⟨stored, kept, -⟩ :=
    busWrite_ram gba ram' (align2_align2 a) (w := .half) (fun h => nomatch h)
      ((getByte v 0 ++ getByte v 0).zeroExtend 32)
  obtain ⟨product, low, high⟩ := doubled_byte (getByte v 0)
  rw [busWrite_both both]
  generalize busWrite _ _ _ _ = t at *
  refine ⟨?_, fun b h0 h1 => kept b fun k hk => ?_⟩
  · have first : byteAt t (align2 a) = getByte v 0 := by simpa [low] using stored 0 (by decide)
    have second : byteAt t (align2 a + 1) = getByte v 0 := (stored 1 (by decide)).trans high
    simp only [valueAt, first, second]
    exact product.trans (congrArg (· * 0x101#32) (setWidth_extract_eq_and v 8))
  · simp only [Width.bytes] at hk
    interval_cases k
    · simpa using h0
    · exact h1

end

/-- Settles O48: the areas of VRAM by the folded offset, and a doubled byte as a write of its halfword. -/
theorem byteWritesToVideoMemory : Obligations.ByteWritesToVideoMemory := by
  intro a v s gba mode objStart off doubled
  have start : s.objStart = objStart := objStart_eq s
  have offset (vram : region s.bus a = .vram) : regionOffset s.bus a = off := by
    rw [gba] at vram ⊢
    rw [regionOffset_gba (by rw [vram]; decide), vram]
    rfl
  have ignored (h : byteWriteAt a s = .ignored) : busWrite a .byte v s = s := by simp only [busWrite, h]
  refine ⟨fun palette => ?_, fun vram below => ?_, fun vram past => ignored ?_, fun oam => ignored ?_⟩
  · exact busWrite_doubled gba (by rw [palette]; rfl) (by unfold byteWriteAt; rw [palette]) v
  · refine busWrite_doubled gba (by rw [vram]; rfl) ?_ v
    unfold byteWriteAt
    rw [vram]
    exact if_pos (by rwa [offset vram, start])
  · unfold byteWriteAt
    rw [vram]
    exact if_neg (by rw [offset vram, start]; exact not_lt.mpr past)
  · unfold byteWriteAt
    rw [oam]

-- The I/O region through the bus

/-- The address of an I/O offset in the default map (R580). -/
def ioAddress (off : Nat) : Word := 0x04000000 + BitVec.ofNat 32 off

section
variable {off : Nat} {s : State}

theorem toNat_ioAddress (h : off < 0x400) : (ioAddress off).toNat = 0x04000000 + off := by
  unfold ioAddress
  rw [BitVec.toNat_add, BitVec.toNat_ofNat]
  show (0x04000000 + _) % _ = _
  omega

theorem ioAddress_add (off k : Nat) : ioAddress off + BitVec.ofNat 32 k = ioAddress (off + k) := by
  unfold ioAddress
  rw [BitVec.add_assoc, BitVec.ofNat_add]

theorem region_ioAddress (h : off < 0x400) : region Bus.gba (ioAddress off) = .io :=
  region_gba (r := ⟨0x04000000, 0x040003FF, .io, 0⟩) (by decide) (by
    rw [toNat_ioAddress h]
    show 0x04000000 ≤ _ ∧ _ ≤ 0x040003FF
    omega)

theorem regionOffset_ioAddress (h : off < 0x400) : regionOffset Bus.gba (ioAddress off) = off := by
  rw [regionOffset_gba (by rw [region_ioAddress h]; decide), region_ioAddress h, toNat_ioAddress h]
  simp only [regionPlace]
  omega

theorem writeByte_io (gba : s.bus = Bus.gba) (h : off < 0x400) (b : Byte) :
    writeByte (ioAddress off) b s = ioWrite s off b := by
  unfold writeByte
  rw [gba, region_ioAddress h, regionOffset_ioAddress h]

theorem readByte_io_some (gba : s.bus = Bus.gba) (h : off < 0x400) {b : Byte} (read : ioRead s off = some b) (f : Bool) :
    readByte f (ioAddress off) s = (b, s) := by
  simp only [readByte, gba, region_ioAddress h, regionOffset_ioAddress h, read]

theorem readByte_io_none (gba : s.bus = Bus.gba) (h : off < 0x400) (read : ioRead s off = none) (f : Bool) :
    readByte f (ioAddress off) s = s.drawByte := by
  simp only [readByte, gba, region_ioAddress h, regionOffset_ioAddress h, read]

end

-- Open bus and ignored writes

/-- The registers no byte of which can be read (R86, R580). -/
def IoReg.unreadable : IoReg → Bool
  | .fifoA | .fifoB | .dmaSad _ | .dmaDad _ | .dmaCntL _ | .haltcnt | .openBus => true
  | _ => false

theorem ioRead_eq_none {off : Nat} (h : (ioRegAt off).1.unreadable = true) (s : State) : ioRead s off = none := by
  unfold ioRead
  generalize ioRegAt off = r at *
  rcases r with ⟨r, k⟩
  cases r <;> simp only [IoReg.unreadable, Bool.false_eq_true] at h <;> rfl

/-- The unused and write-only offsets of the table of R580. -/
theorem ioRegAt_unreadable : ∀ k : Fin 0x400,
    ((0x56 ≤ k.val ∧ k.val ≤ 0x5F) ∨ (0x86 ≤ k.val ∧ k.val ≤ 0x87) ∨ (0xA0 ≤ k.val ∧ k.val ≤ 0xAF) ∨
      (0xB0 ≤ k.val ∧ k.val ≤ 0xDF ∧ (k.val - 0xB0) % 12 < 10) ∨ (0xE0 ≤ k.val ∧ k.val ≤ 0xFF) ∨
      (0x110 ≤ k.val ∧ k.val ≤ 0x11F) ∨ (0x160 ≤ k.val ∧ k.val ≤ 0x1FF) ∨ (0x206 ≤ k.val ∧ k.val ≤ 0x207) ∨
      (0x20C ≤ k.val ∧ k.val ≤ 0x2FF) ∨ (0x301 ≤ k.val ∧ k.val ≤ 0x3FF)) →
    (ioRegAt k.val).1.unreadable = true := by decide +kernel

/-- A byte that no storage gives is a draw (R86, R91, R92, R603). -/
theorem readByte_draw {f : Bool} {a : Word} {s : State}
    (free : region s.bus a = .unmapped ∨ region s.bus a = .save ∨
      (region s.bus a = .bios ∧ (f && s.params.biosImage) = false) ∨
      (region s.bus a = .rom ∧ ¬regionOffset s.bus a < s.params.romSize)) (d : Nat) :
    readByte f a { s with draws := d } = { s with draws := d }.drawByte := by
  unfold readByte
  dsimp only [State.bus] at *
  rcases free with h | h | ⟨h, shut⟩ | ⟨h, past⟩ <;> rw [h]
  · exact if_neg (by rw [shut]; decide)
  · exact if_neg past

/-- Settles O49: each byte of an open-bus access is a draw, and each byte of an ignored write is ignored. -/
theorem openBusAndIgnoredWrites : Obligations.OpenBusAndIgnoredWrites := by
  refine ⟨fun a w s gba ha free => ?_, fun off w s gba ho => ?_, fun a v w s gba ha free => ?_⟩
  · refine busRead_eq_freeBytes fun k hk d => ?_
    have region : region s.bus (a + BitVec.ofNat 32 k) = region s.bus a := by rw [gba]; exact region_gba_add ha hk
    rcases free with h | h | ⟨h, closed⟩ | ⟨h, past⟩
    · exact readByte_draw (.inl (region.trans h)) _
    · exact readByte_draw (.inr (.inl (region.trans h))) _
    · have shut : (s.inBios && s.params.biosImage) = false := by
        rcases closed with outside | absent
        · simp [State.inBios, outside]
        · rw [absent, Bool.and_false]
      exact readByte_draw (.inr (.inr (.inl ⟨region.trans h, shut⟩))) _
    · have stored : regionSize (Machine.region Bus.gba (a + BitVec.ofNat 32 k)) ≠ 0 := by rw [← gba, region, h]; decide
      have offset : regionOffset s.bus (a + BitVec.ofNat 32 k) = a.toNat % 0x2000000 + k := by
        rw [gba, regionOffset_gba stored, ← gba, region, h, toNat_add_of_aligned ha hk]
        exact regionPlace_add .rom (Width.align_eq_iff.mp ha) hk
      exact readByte_draw (.inr (.inr (.inr ⟨region.trans h, by show ¬regionOffset s.bus _ < s.params.romSize; omega⟩))) _
  · intro openBus free
    refine busRead_eq_freeBytes fun k hk d => ?_
    have inside : off + k < 0x400 := by
      have := free k hk
      omega
    show readByte _ (ioAddress off + BitVec.ofNat 32 k) _ = _
    rw [ioAddress_add]
    exact readByte_io_none (s := { s with draws := d }) gba inside
      (ioRead_eq_none (ioRegAt_unreadable ⟨off + k, inside⟩ (free k hk)) _) _
  · have keeps {k : Nat} (hk : k < w.bytes) (b : Byte) : writeByte (a + BitVec.ofNat 32 k) b s = s := by
      unfold writeByte
      rw [gba, region_gba_add ha hk, ← gba]
      rcases free with h | h | h | h <;> rw [h]
    have single (hw : w = .byte) : byteWriteAt a s = .single := by
      unfold byteWriteAt
      rcases free with h | h | h | h <;> rw [h]
    rw [busWrite_eq_writeBytes single]
    suffices prefixes : ∀ n ≤ w.bytes, writeBytes a v n s = s from prefixes w.bytes le_rfl
    intro n hn
    induction n with
    | zero => rfl
    | succ n ih => rw [writeBytes, ih (by omega), keeps hn]

/-!
PROOFS. The I/O registers through the bus (spec/60_exceptions.md section 9): a write is one of each byte, and a read of
bytes that can be read gives them, so that each register is told by what its bytes do.
-/

-- Registers byte by byte

/-- Byte `k` of a value replaced, bit by bit. -/
theorem getLsbD_putByte {n : Nat} (v : BitVec n) (k : Nat) (b : Byte) {i : Nat} (hi : i < n) :
    (putByte v k b).getLsbD i = if 8 * k ≤ i ∧ i < 8 * k + 8 then b.getLsbD (i - 8 * k) else v.getLsbD i := by
  have ones (j : Nat) (hj : j < n) : (0xFF#n).getLsbD j = decide (j < 8) := by
    have mask : Nat.testBit 255 j = decide (j < 8) := Nat.testBit_two_pow_sub_one 8 j
    rw [BitVec.getLsbD_ofNat, mask, decide_eq_true hj, Bool.true_and]
  unfold putByte
  rw [BitVec.getLsbD_or, BitVec.getLsbD_and, BitVec.getLsbD_not, BitVec.getLsbD_shiftLeft, BitVec.getLsbD_shiftLeft,
    ones _ (by omega), BitVec.getLsbD_setWidth]
  by_cases low : i < 8 * k
  · simp [hi, low, not_le.mpr low]
  · by_cases high : i < 8 * k + 8
    · simp [hi, low, high, not_lt.mp low, show i - 8 * k < 8 by omega, show i - 8 * k < n by omega]
    · simp [hi, low, high, show ¬i - 8 * k < 8 by omega, show b.getLsbD (i - 8 * k) = false from
        BitVec.getLsbD_of_ge _ _ (by omega)]

theorem getLsbD_getByte {n : Nat} (v : BitVec n) (k i : Nat) :
    (getByte v k).getLsbD i = (decide (i < 8) && v.getLsbD (8 * k + i)) := BitVec.getLsbD_extractLsb' ..

/-- Both bytes of a halfword replaced. -/
theorem putByte_half (x : Half) (v : Word) :
    putByte (putByte x 0 (getByte v 0)) 1 (getByte v 1) = v.extractLsb' 0 16 := by
  refine BitVec.eq_of_getLsbD_eq fun i hi => ?_
  rw [getLsbD_putByte _ _ _ hi, getLsbD_putByte _ _ _ hi]
  rw [getLsbD_getByte, getLsbD_getByte, BitVec.getLsbD_extractLsb', decide_eq_true hi]
  split
  · simp [show i - 8 * 1 < 8 by omega, show 8 * 1 + (i - 8 * 1) = i by omega]
  · simp [show i < 8 by omega]

/-- All bytes of a word replaced. -/
theorem putByte_word (x v : Word) :
    putByte (putByte (putByte (putByte x 0 (getByte v 0)) 1 (getByte v 1)) 2 (getByte v 2)) 3 (getByte v 3) = v := by
  refine BitVec.eq_of_getLsbD_eq fun i hi => ?_
  rw [getLsbD_putByte _ _ _ hi, getLsbD_putByte _ _ _ hi, getLsbD_putByte _ _ _ hi, getLsbD_putByte _ _ _ hi]
  simp only [getLsbD_getByte]
  split
  · simp [show i - 8 * 3 < 8 by omega, show 8 * 3 + (i - 8 * 3) = i by omega]
  · split
    · simp [show i - 8 * 2 < 8 by omega, show 8 * 2 + (i - 8 * 2) = i by omega]
    · split
      · simp [show i - 8 * 1 < 8 by omega, show 8 * 1 + (i - 8 * 1) = i by omega]
      · simp [show i < 8 by omega]

/-- Both bytes of a halfword, the lower first. -/
theorem getByte_append_half (h : Half) : getByte h 1 ++ getByte h 0 = h :=
  (BitVec.extractLsb'_append_extractLsb'_eq_extractLsb' (x := h) (start₁ := 0) (len₁ := 8) (len₂ := 8) rfl).trans
    (BitVec.extractLsb'_eq_self)

-- Accesses

section
variable {off : Nat} {s : State} {w : Width}

theorem byteWriteAt_io (gba : s.bus = Bus.gba) (h : off < 0x400) : byteWriteAt (ioAddress off) s = .single := by
  unfold byteWriteAt
  rw [gba, region_ioAddress h]

theorem busWrite_io_byte (gba : s.bus = Bus.gba) (h : off < 0x400) (v : Word) :
    busWrite (ioAddress off) .byte v s = ioWrite s off (getByte v 0) := by
  simp only [busWrite, byteWriteAt_io gba h, writeByte_io gba h]

/-- A halfword written to I/O is its lower byte, then its upper one (R82, R93). -/
theorem busWrite_io_half (gba : s.bus = Bus.gba) (h : off + 1 < 0x400) (v : Word) :
    busWrite (ioAddress off) .half v s = ioWrite (ioWrite s off (getByte v 0)) (off + 1) (getByte v 1) := by
  rw [← writeByte_io gba (Nat.lt_of_succ_lt h), ← writeByte_io (by simpa using gba) h, ← ioAddress_add off 1]
  rfl

theorem busWrite_io_word (gba : s.bus = Bus.gba) (h : off + 3 < 0x400) (v : Word) :
    busWrite (ioAddress off) .word v s = ioWrite (ioWrite (ioWrite (ioWrite s off (getByte v 0)) (off + 1) (getByte v 1))
      (off + 2) (getByte v 2)) (off + 3) (getByte v 3) := by
  rw [← writeByte_io gba (by omega), ← writeByte_io (off := off + 1) (by simpa using gba) (by omega),
    ← writeByte_io (off := off + 2) (by simpa using gba) (by omega),
    ← writeByte_io (off := off + 3) (by simpa using gba) h, ← ioAddress_add off 1, ← ioAddress_add off 2,
    ← ioAddress_add off 3]
  rfl

/-- A read of I/O whose bytes can all be read gives them (R82, R580). -/
theorem cpuRead_io (gba : s.bus = Bus.gba) {v : Word}
    (bytes : ∀ k < w.bytes, off + k < 0x400 ∧ ioRead s (off + k) = some (getByte v k)) :
    cpuRead (ioAddress off) w s = (v &&& w.mask, s) := by
  have byte (k : Nat) (hk : k < w.bytes) : readByte s.inBios (ioAddress (off + k)) s = (getByte v k, s) := by
    obtain ⟨inside, read⟩ := bytes k hk
    exact readByte_io_some gba inside read _
  have first : readByte s.inBios (ioAddress off) s = (getByte v 0, s) := byte 0 (by cases w <;> decide)
  unfold cpuRead
  cases w with
  | byte =>
    simp only [busRead, first]
    exact congrArg (·, s) (setWidth_extract_eq_and v 8)
  | half =>
    have second : readByte s.inBios (ioAddress off + 1) s = (getByte v 1, s) :=
      (congrArg (readByte _ · s) (ioAddress_add off 1)).trans (byte 1 (by decide))
    simp only [busRead, first, second, getByte_append]
    exact congrArg (·, s) (setWidth_extract_eq_and v 16)
  | word =>
    have second : readByte s.inBios (ioAddress off + 1) s = (getByte v 1, s) :=
      (congrArg (readByte _ · s) (ioAddress_add off 1)).trans (byte 1 (by decide))
    have third : readByte s.inBios (ioAddress off + 2) s = (getByte v 2, s) :=
      (congrArg (readByte _ · s) (ioAddress_add off 2)).trans (byte 2 (by decide))
    have fourth : readByte s.inBios (ioAddress off + 3) s = (getByte v 3, s) :=
      (congrArg (readByte _ · s) (ioAddress_add off 3)).trans (byte 3 (by decide))
    simp only [busRead, first, second, third, fourth]
    exact congrArg (·, s) ((getByte_append_word v).trans (BitVec.and_allOnes (x := v)).symm)

/-- A read of a halfword register gives it, zero-extended. -/
theorem cpuRead_io_half (gba : s.bus = Bus.gba) (inside : off + 1 < 0x400) {h : Half}
    (low : ioRead s off = some (getByte h 0)) (high : ioRead s (off + 1) = some (getByte h 1)) :
    cpuRead (ioAddress off) .half s = (h.zeroExtend 32, s) := by
  have second : readByte s.inBios (ioAddress off + 1) s = (getByte h 1, s) := by
    rw [show ioAddress off + 1 = ioAddress (off + 1) from ioAddress_add off 1, readByte_io_some gba inside high]
  simp only [cpuRead, busRead, readByte_io_some gba (Nat.lt_of_succ_lt inside) low, second, getByte_append_half]

end

/-!
PROOFS. The interrupt, display and keypad registers, and plain storage, as the bus writes and reads them
(spec/60_exceptions.md sections 2, 6, 8 and 9).
-/

-- Registers of fewer bits than their halfword

/-- The halfword of `IE` written byte by byte, kept in 14 bits. -/
theorem ie_written (x : BitVec 14) (v : Word) :
    (putByte (((putByte (x.zeroExtend 16) 0 (getByte v 0)).extractLsb' 0 14).zeroExtend 16) 1
      (getByte v 1)).extractLsb' 0 14 = v.extractLsb' 0 14 := by
  refine BitVec.eq_of_getLsbD_eq fun i hi => ?_
  rw [BitVec.getLsbD_extractLsb', getLsbD_putByte _ _ _ (by omega), getLsbD_getByte, BitVec.getLsbD_setWidth,
    BitVec.getLsbD_extractLsb', getLsbD_putByte _ _ _ (by omega), getLsbD_getByte, BitVec.getLsbD_extractLsb']
  by_cases low : i < 8
  · simp [hi, low, show ¬8 ≤ i by omega, show i < 16 by omega]
  · simp [hi, show 8 ≤ i by omega, show i < 16 by omega, show i - 8 < 8 by omega, show 8 + (i - 8) = i by omega]

/-- The bits of `IF` cleared byte by byte. -/
theorem iflags_cleared (x : BitVec 14) (v : Word) :
    x &&& ~~~(((getByte v 0).zeroExtend 16 <<< (8 * 0)).extractLsb' 0 14) &&&
      ~~~(((getByte v 1).zeroExtend 16 <<< (8 * 1)).extractLsb' 0 14) = x &&& ~~~(v.extractLsb' 0 14) := by
  refine BitVec.eq_of_getLsbD_eq fun i hi => ?_
  simp only [BitVec.getLsbD_and, BitVec.getLsbD_not, BitVec.getLsbD_extractLsb', BitVec.getLsbD_shiftLeft,
    BitVec.getLsbD_setWidth, getLsbD_getByte]
  by_cases low : i < 8
  · simp [hi, low, show i < 16 by omega]
  · simp [hi, low, show i < 16 by omega, show i - 8 < 8 by omega, show i - 8 < 16 by omega,
      show 8 + (i - 8) = i by omega]

/-- `DISPSTAT` as read, bit by bit (R550). -/
theorem getLsbD_dispstatHalf (d : Devices) {k : Nat} (hk : k < 16) :
    d.dispstatHalf.getLsbD k =
      if 8 ≤ k then d.dispstat.lyc.getLsbD (k - 8)
      else (k == 0 && d.ppu.inVblank) || (k == 1 && d.ppu.inHblank) || (k == 2 && d.vcountMatch) ||
        (k == 3 && d.dispstat.vblankIrq) || (k == 4 && d.dispstat.hblankIrq) || (k == 5 && d.dispstat.vcountIrq) := by
  unfold Devices.dispstatHalf
  simp only [BitVec.getLsbD_append, BitVec.getLsbD_ofBool, BitVec.getLsbD_zero]
  interval_cases k <;> simp

/-- `KEYCNT` as read, bit by bit (R565). -/
theorem getLsbD_keycntHalf (q : KeyCnt) {k : Nat} (hk : k < 16) :
    q.half.getLsbD k = if k < 10 then q.select.getLsbD k else (k == 14 && q.irq) || (k == 15 && q.all) := by
  unfold KeyCnt.half
  simp only [BitVec.getLsbD_append, BitVec.getLsbD_ofBool, BitVec.getLsbD_zero]
  interval_cases k <;> simp

/-- The upper half of a zero-extended halfword. -/
theorem extract_high_half (h : Half) : (h.zeroExtend 32).extractLsb' 16 16 = 0 := by
  ext i hi
  simp

/-- A field of a zero-extended halfword, bit by bit. -/
theorem extract_half {h : Half} {lo n : Nat} {x : BitVec n} (inside : lo + n ≤ 16)
    (bits : ∀ i < n, h.getLsbD (lo + i) = x.getLsbD i) : (h.zeroExtend 32).extractLsb' lo n = x := by
  refine BitVec.eq_of_getLsbD_eq fun i hi => ?_
  rw [BitVec.getLsbD_extractLsb', BitVec.getLsbD_setWidth, bits i hi, decide_eq_true hi,
    decide_eq_true (show lo + i < 32 by omega), Bool.true_and, Bool.true_and]

theorem getLsbD_zeroExtend_half (h : Half) {k : Nat} (hk : k < 16) : (h.zeroExtend 32).getLsbD k = h.getLsbD k := by
  rw [BitVec.getLsbD_setWidth, decide_eq_true (show k < 32 by omega), Bool.true_and]

theorem keycnt_written (q : KeyCnt) (v : Word) :
    (q.writeByte 0 (getByte v 0)).writeByte 1 (getByte v 1) = ⟨v.extractLsb' 0 10, v.getLsbD 14, v.getLsbD 15⟩ := by
  have select : (getByte v 1).extractLsb' 0 2 ++ (q.select.extractLsb' 8 2 ++ getByte v 0).extractLsb' 0 8 =
      v.extractLsb' 0 10 := by
    refine BitVec.eq_of_getLsbD_eq fun i hi => ?_
    simp only [BitVec.getLsbD_append, BitVec.getLsbD_extractLsb', getLsbD_getByte]
    interval_cases i <;> simp
  simp only [KeyCnt.writeByte, if_true, if_neg one_ne_zero, select, getLsbD_getByte]
  rfl

-- The registers

section
variable {s : State} (gba : s.bus = Bus.gba) (v : Word)
include gba

theorem busWrite_ie : busWrite (ioAddress 0x200) .half v s = s.setDev { s.dev with ie := v.extractLsb' 0 14 } := by
  rw [busWrite_io_half gba (by decide), ← ie_written s.dev.ie v]
  rfl

theorem busWrite_iflags :
    busWrite (ioAddress 0x202) .half v s = s.setDev { s.dev with iflags := s.dev.iflags &&& ~~~(v.extractLsb' 0 14) } := by
  rw [busWrite_io_half gba (by decide), ← iflags_cleared s.dev.iflags v]
  rfl

theorem busWrite_ime : busWrite (ioAddress 0x208) .half v s = s.setDev { s.dev with ime := v.getLsbD 0 } := by
  have bit : (getByte v 0).getLsbD 0 = v.getLsbD 0 := getLsbD_getByte v 0 0
  rw [busWrite_io_half gba (by decide), ← bit]
  rfl

theorem busWrite_dispstat : busWrite (ioAddress 4) .half v s =
    s.setDev { s.dev with dispstat := ⟨v.getLsbD 3, v.getLsbD 4, v.getLsbD 5, v.extractLsb' 8 8⟩ } := by
  have bit {k : Nat} (hk : k < 8) : v.getLsbD k = (getByte v 0).getLsbD k := by
    rw [getLsbD_getByte, decide_eq_true hk, Bool.true_and, Nat.mul_zero, Nat.zero_add]
  rw [busWrite_io_half gba (by decide), bit (show 3 < 8 by decide), bit (show 4 < 8 by decide),
    bit (show 5 < 8 by decide)]
  rfl

theorem busWrite_keycnt : busWrite (ioAddress 0x132) .half v s =
    s.setDev { s.dev with keycnt := ⟨v.extractLsb' 0 10, v.getLsbD 14, v.getLsbD 15⟩ } := by
  rw [busWrite_io_half gba (by decide), ← keycnt_written s.dev.keycnt v]
  rfl

end

-- Plain storage

/-- The plain-storage offsets of the table of R580. -/
theorem ioRegAt_plain : ∀ k : Fin 0x400,
    (k.val ≤ 3 ∨ (8 ≤ k.val ∧ k.val ≤ 0x55) ∨ (0x60 ≤ k.val ∧ k.val ≤ 0x81) ∨ (0x84 ≤ k.val ∧ k.val ≤ 0x85) ∨
      (0x88 ≤ k.val ∧ k.val ≤ 0x9F) ∨ (0x120 ≤ k.val ∧ k.val ≤ 0x12F) ∨ (0x134 ≤ k.val ∧ k.val ≤ 0x15F) ∨
      (0x204 ≤ k.val ∧ k.val ≤ 0x205) ∨ k.val = 0x300) →
    ioRegAt k.val = (.plain, k.val) := by decide +kernel

section
variable {off : Nat} {s : State}

theorem ioWrite_plain (h : ioRegAt off = (.plain, off)) (b : Byte) :
    ioWrite s off b = s.setMem (s.mem.write (ioCell off) b) := by
  unfold ioWrite
  rw [h]

theorem ioRead_plain (h : ioRegAt off = (.plain, off)) : ioRead s off = some (s.mem.read (ioCell off)) := by
  unfold ioRead
  rw [h]

/-- Bytes written to plain storage: each is held, every other byte of memory is kept, and nothing else changes (R580). -/
theorem writeBytes_plain (gba : s.bus = Bus.gba) (v : Word) {n : Nat}
    (plain : ∀ k < n, off + k < 0x400 ∧ ioRegAt (off + k) = (.plain, off + k)) :
    let t := writeBytes (ioAddress off) v n s
    t = s.setMem t.mem ∧ (∀ k < n, t.mem.read (ioCell (off + k)) = getByte v k) ∧
      ∀ c : Nat, c < ioCell off ∨ ioCell (off + n) ≤ c → t.mem.read c = s.mem.read c := by
  unfold ioCell
  induction n with
  | zero => exact ⟨rfl, fun k hk => absurd hk k.not_lt_zero, fun c _ => rfl⟩
  | succ n ih =>
    obtain ⟨frame, held, kept⟩ := ih fun k hk => plain k (by omega)
    obtain ⟨inside, reg⟩ := plain n (by omega)
    generalize ht : writeBytes (ioAddress off) v n s = t at *
    have write : writeBytes (ioAddress off) v (n + 1) s = t.setMem (t.mem.write (ioCell (off + n)) (getByte v n)) := by
      rw [writeBytes, ht, ioAddress_add, writeByte_io (by rw [frame]; exact gba) inside, ioWrite_plain reg]
    intro u
    have read (c : Nat) : u.mem.read c = if ioCell (off + n) = c then getByte v n else t.mem.read c := by
      rw [show u.mem = t.mem.write (ioCell (off + n)) (getByte v n) from congrArg State.mem write]
      exact Memory.read_write _ _ _ _
    unfold ioCell at read
    refine ⟨?_, fun k hk => ?_, fun c hc => ?_⟩
    · show writeBytes _ _ _ _ = s.setMem (writeBytes _ _ _ _).mem
      rw [write, frame]
      rfl
    · rw [read]
      rcases Nat.lt_succ_iff_lt_or_eq.mp hk with hk | rfl
      · rw [if_neg (by omega), held k hk]
      · rw [if_pos rfl]
    · rw [read, if_neg (by omega), kept c (by omega)]

end

/-- Settles O50: each register by its two bytes, plain storage byte by byte. -/
theorem interruptRegisters : Obligations.InterruptRegisters := by
  refine ⟨fun v s gba => ?_, fun off w v s gba _ => ?_⟩
  · refine ⟨busWrite_ie gba v, busWrite_iflags gba v, busWrite_ime gba v, ?halt, ?ie, ?iflags, ?ime,
      busWrite_dispstat gba v, ?dispstat, ?vcount, ?keepVcount, ?keyinput, ?keepKeyinput, busWrite_keycnt gba v, ?keycnt,
      ?unused, ?keepUnused⟩
    case halt => exact busWrite_io_byte gba (off := 0x301) (by decide) v
    case ie =>
      refine (cpuRead_io_half gba (off := 0x200) (h := s.dev.ie.zeroExtend 16) (by decide) rfl rfl).trans ?_
      exact congrArg (·, s) (BitVec.setWidth_setWidth (by decide))
    case iflags =>
      refine (cpuRead_io_half gba (off := 0x202) (h := s.dev.iflags.zeroExtend 16) (by decide) rfl rfl).trans ?_
      exact congrArg (·, s) (BitVec.setWidth_setWidth (by decide))
    case ime =>
      refine (cpuRead_io_half gba (off := 0x208) (h := (BitVec.ofBool s.dev.ime).zeroExtend 16) (by decide) rfl rfl).trans ?_
      exact congrArg (·, s) (BitVec.setWidth_setWidth (by decide))
    case dispstat =>
      have read : cpuRead 0x04000004 .half s = (s.dev.dispstatHalf.zeroExtend 32, s) :=
        cpuRead_io_half gba (off := 4) (by decide) rfl rfl
      intro r p
      have value : r.1 = s.dev.dispstatHalf.zeroExtend 32 := congrArg Prod.fst read
      have bit {k : Nat} (hk : k < 16) : r.1.getLsbD k = s.dev.dispstatHalf.getLsbD k := by
        rw [value, getLsbD_zeroExtend_half _ hk]
      refine ⟨congrArg Prod.snd read, ?_, ?_, ?_, ?_, ?_, ?_, ?_, ?_, ?_⟩
      · rw [bit (by decide), getLsbD_dispstatHalf _ (by decide)]
        simp [Ppu.inVblank, p]
      · rw [bit (by decide), getLsbD_dispstatHalf _ (by decide)]
        simp [Ppu.inHblank, p]
        omega
      · rw [bit (by decide), getLsbD_dispstatHalf _ (by decide)]
        simp [Devices.vcountMatch, p]
      · rw [bit (by decide), getLsbD_dispstatHalf _ (by decide)]
        simp
      · rw [bit (by decide), getLsbD_dispstatHalf _ (by decide)]
        simp
      · rw [bit (by decide), getLsbD_dispstatHalf _ (by decide)]
        simp
      · rw [value]
        refine extract_half (by decide) fun i hi => ?_
        rw [getLsbD_dispstatHalf _ (by omega)]
        interval_cases i <;> rfl
      · rw [value]
        refine extract_half (by decide) fun i hi => ?_
        rw [getLsbD_dispstatHalf _ (by omega), if_pos (by omega), Nat.add_sub_cancel_left]
      · rw [value]
        exact extract_high_half _
    case vcount =>
      refine (cpuRead_io_half gba (off := 6) (h := s.dev.vcountHalf) (by decide) rfl rfl).trans ?_
      have line := s.dev.ppu.line.isLt
      exact congrArg (·, s) (BitVec.eq_of_toNat_eq (by simp [Devices.vcountHalf]; omega))
    case keepVcount => exact busWrite_io_half gba (off := 6) (by decide) v
    case keyinput =>
      refine (cpuRead_io_half gba (off := 0x130) (h := s.keyinputHalf) (by decide) rfl rfl).trans ?_
      have zeros : s.keyinputHalf = (~~~s.buttons).zeroExtend 16 := by
        unfold State.keyinputHalf
        refine BitVec.eq_of_toNat_eq ?_
        rw [BitVec.toNat_append, BitVec.toNat_setWidth, Nat.mod_eq_of_lt (by omega)]
        simp
      exact congrArg (·, s) ((congrArg (BitVec.zeroExtend 32) zeros).trans (BitVec.setWidth_setWidth (by decide)))
    case keepKeyinput => exact busWrite_io_half gba (off := 0x130) (by decide) v
    case keycnt =>
      have read : cpuRead 0x04000132 .half s = (s.dev.keycnt.half.zeroExtend 32, s) :=
        cpuRead_io_half gba (off := 0x132) (by decide) rfl rfl
      intro r
      have value : r.1 = s.dev.keycnt.half.zeroExtend 32 := congrArg Prod.fst read
      refine ⟨congrArg Prod.snd read, ?_, ?_, ?_, ?_, ?_⟩
      · rw [value]
        refine extract_half (by decide) fun i hi => ?_
        rw [getLsbD_keycntHalf _ (by omega), Nat.zero_add, if_pos hi]
      · rw [value]
        refine extract_half (by decide) fun i hi => ?_
        rw [getLsbD_keycntHalf _ (by omega)]
        interval_cases i <;> rfl
      · rw [value, getLsbD_zeroExtend_half _ (by decide), getLsbD_keycntHalf _ (by decide)]
        simp
      · rw [value, getLsbD_zeroExtend_half _ (by decide), getLsbD_keycntHalf _ (by decide)]
        simp
      · rw [value]
        exact extract_high_half _
    case unused => exact cpuRead_io_half gba (off := 0x20A) (h := 0) (by decide) rfl rfl
    case keepUnused => exact busWrite_io_half gba (off := 0x20A) (by decide) v
  · intro plain storage a t
    have places (k : Nat) (hk : k < w.bytes) : off + k < 0x400 ∧ ioRegAt (off + k) = (.plain, off + k) := by
      have inside : off + k < 0x400 := by
        have := storage k hk
        omega
      exact ⟨inside, ioRegAt_plain ⟨off + k, inside⟩ (storage k hk)⟩
    have first : off < 0x400 := (places 0 (by cases w <;> decide)).1
    obtain ⟨frame, held, kept⟩ := writeBytes_plain gba v places
    rw [← busWrite_eq_writeBytes (fun _ => byteWriteAt_io gba first)] at frame held kept
    have bus : t.bus = Bus.gba := (congrArg Params.bus (busWrite_params a w v s)).trans gba
    refine ⟨cpuRead_io bus fun k hk => ?_, frame, fun c hc => kept c ?_⟩
    · obtain ⟨inside, reg⟩ := places k hk
      exact ⟨inside, (ioRead_plain reg).trans (congrArg some (held k hk))⟩
    · unfold ioCell
      omega

end Sys2Proof.Machine

/-!
PROOFS. The timers (spec/60_exceptions.md section 4, rules R535 to R538): what a cycle makes of each timer by itself and
the overflow of the timer before it, and the registers of a timer through the bus.
-/

namespace Sys2Proof.Machine

-- One cycle of one timer

/-- A timer after a tick (R536). -/
def Timer.ticked (t : Timer) : Timer := { t with counter := if t.counter = 0xFFFF then t.reload else t.counter + 1 }

/-- The timer counts the overflows of the timer before it (R538). -/
def Timer.cascades (t : Timer) (n : Fin 4) : Bool := t.cascade && n != 0

/-- The timer ticks in a cycle, given whether the timer before it overflows (R536, R538). -/
def Timer.ticks (t : Timer) (n : Fin 4) (carry : Bool) : Bool :=
  t.enable && if t.cascades n then carry else t.periodEnds

/-- The timer after a cycle (R536, R538). -/
def Timer.cycled (t : Timer) (n : Fin 4) (carry : Bool) : Timer :=
  if !t.enable then t
  else if t.cascades n then (if carry then t.ticked else t)
  else if t.periodEnds then { t with count := 0 }.ticked
  else { t with count := t.count + 1 }

theorem Timer.divisor_le_iff (t : Timer) : t.divisor ≤ t.count + 1 ↔ t.periodEnds = true := by
  unfold Timer.divisor Timer.periodEnds
  generalize t.prescaler = p
  have cases : p = 0 ∨ p = 1 ∨ p = 2 ∨ p = 3 := by revert p; decide
  rcases cases with rfl | rfl | rfl | rfl <;> simp

section
variable (n : Fin 4) (s : State)

theorem Devices.setTimer_same (d : Devices) (t : Timer) : (d.setTimer n t).timers[n] = t := by
  simp [Devices.setTimer]

theorem Devices.setTimer_other {m : Fin 4} (h : m ≠ n) (d : Devices) (t : Timer) :
    (d.setTimer n t).timers[m] = d.timers[m] := by
  have apart : n.val ≠ m.val := Fin.val_ne_of_ne h.symm
  simp [Devices.setTimer, apart]

/-- An overflow writes no timer (R536). -/
theorem timerOverflow_timers (irq : Bool) : (timerOverflow n irq s).dev.timers = s.dev.timers := by
  unfold timerOverflow State.setDev
  dsimp only
  split <;> split <;> split <;> rfl

theorem timerTick_timers :
    (timerTick n s).1.dev.timers[n] = s.dev.timers[n].ticked ∧
    (∀ m : Fin 4, m ≠ n → (timerTick n s).1.dev.timers[m] = s.dev.timers[m]) ∧
    (timerTick n s).2 = (s.dev.timers[n].counter == 0xFFFF) := by
  unfold timerTick Timer.ticked
  by_cases full : s.dev.timers[n].counter = 0xFFFF
  · simp only [full, if_true, timerOverflow_timers]
    exact ⟨Devices.setTimer_same n _ _, fun m hm => Devices.setTimer_other n hm _ _, rfl⟩
  · simp only [full, if_false]
    exact ⟨Devices.setTimer_same n _ _, fun m hm => Devices.setTimer_other n hm _ _, (beq_eq_false_iff_ne.mpr full).symm⟩

/-- A cycle of a timer: that timer, the others, and whether it overflowed (R536, R538). -/
theorem timerCycle_timers (carry : Bool) :
    (timerCycle n carry s).1.dev.timers[n] = s.dev.timers[n].cycled n carry ∧
    (∀ m : Fin 4, m ≠ n → (timerCycle n carry s).1.dev.timers[m] = s.dev.timers[m]) ∧
    (timerCycle n carry s).2 = (s.dev.timers[n].ticks n carry && s.dev.timers[n].counter == 0xFFFF) := by
  have put (u : Timer) : (s.setDev (s.dev.setTimer n u)).dev.timers[n] = u ∧
      ∀ m : Fin 4, m ≠ n → (s.setDev (s.dev.setTimer n u)).dev.timers[m] = s.dev.timers[m] :=
    ⟨Devices.setTimer_same n _ _, fun m hm => Devices.setTimer_other n hm _ _⟩
  by_cases off : (!s.dev.timers[n].enable) = true
  · rw [show timerCycle n carry s = (s, false) from if_pos off, show Timer.cycled _ n carry = _ from if_pos off]
    have still : s.dev.timers[n].ticks n carry = false := by
      unfold Timer.ticks
      rw [show s.dev.timers[n].enable = false by simpa using off, Bool.false_and]
    exact ⟨rfl, fun _ _ => rfl, by rw [still]; rfl⟩
  · have on : s.dev.timers[n].enable = true := by simpa using off
    by_cases cascade : s.dev.timers[n].cascades n = true
    · have ticks : s.dev.timers[n].ticks n carry = carry := by
        unfold Timer.ticks
        rw [on, cascade]
        rfl
      rw [show timerCycle n carry s = if carry then timerTick n s else (s, false) from
          (if_neg off).trans (if_pos cascade), ticks,
        show Timer.cycled _ n carry = if carry then _ else _ from (if_neg off).trans (if_pos cascade)]
      cases carry with
      | false => exact ⟨rfl, fun _ _ => rfl, rfl⟩
      | true => exact timerTick_timers n s
    · have ticks : s.dev.timers[n].ticks n carry = s.dev.timers[n].periodEnds := by
        unfold Timer.ticks
        rw [on, if_neg cascade]
        rfl
      by_cases period : s.dev.timers[n].periodEnds = true
      · obtain ⟨kept, keptOthers⟩ := put { s.dev.timers[n] with count := 0 }
        rw [show timerCycle n carry s = timerTick n (s.setDev (s.dev.setTimer n { s.dev.timers[n] with count := 0 })) from
            (if_neg off).trans ((if_neg cascade).trans (if_pos ((Timer.divisor_le_iff _).mpr period))), ticks, period,
          show Timer.cycled _ n carry = _ from (if_neg off).trans ((if_neg cascade).trans (if_pos period))]
        obtain ⟨own, others, overflow⟩ :=
          timerTick_timers n (s.setDev (s.dev.setTimer n { s.dev.timers[n] with count := 0 }))
        rw [kept] at own overflow
        exact ⟨own, fun m hm => (others m hm).trans (keptOthers m hm), overflow⟩
      · obtain ⟨own, others⟩ := put { s.dev.timers[n] with count := s.dev.timers[n].count + 1 }
        rw [show timerCycle n carry s = _ from
            (if_neg off).trans ((if_neg cascade).trans (if_neg (mt (Timer.divisor_le_iff _).mp period))), ticks,
          show Timer.cycled _ n carry = _ from (if_neg off).trans ((if_neg cascade).trans (if_neg period)),
          Bool.eq_false_iff.mpr period]
        exact ⟨own, others, rfl⟩

end

-- One cycle of all timers

/-- The timer before timer `n` overflows in the coming cycle (R538). -/
def timerCarry (d : Devices) (n : Fin 4) : Bool :=
  match n.val with
  | 0 => false
  | m + 1 => timerTicks d m && d.timers[Fin.ofNat 4 m].counter == 0xFFFF

theorem timerTicks_eq (d : Devices) (n : Fin 4) : timerTicks d n.val = d.timers[n].ticks n (timerCarry d n) := by
  unfold Timer.ticks Timer.cascades timerCarry
  match n with
  | 0 => simp [timerTicks]
  | 1 => simp [timerTicks]
  | 2 => simp [timerTicks]
  | 3 => simp [timerTicks]

theorem timerCarry_succ (d : Devices) {m n : Fin 4} (h : n.val = m.val + 1) :
    timerCarry d n = (d.timers[m].ticks m (timerCarry d m) && d.timers[m].counter == 0xFFFF) := by
  unfold timerCarry
  rw [h]
  have same : d.timers[Fin.ofNat 4 m.val] = d.timers[m] := congrArg (d.timers[·]) (Fin.ofNat_val_eq_self m)
  show (timerTicks d m.val && d.timers[Fin.ofNat 4 m.val].counter == 0xFFFF) = _
  rw [timerTicks_eq, same]
  rfl

/-- A timer's turn in a cycle, the timers from it on untouched and the overflow of the timer before it given. -/
theorem timerCycle_turn {n : Fin 4} {s : State} {r : State × Bool} (fresh : r.1.dev.timers[n] = s.dev.timers[n])
    (carry : r.2 = timerCarry s.dev n) :
    (timerCycle n r.2 r.1).1.dev.timers[n] = s.dev.timers[n].cycled n (timerCarry s.dev n) ∧
    (∀ m : Fin 4, m ≠ n → (timerCycle n r.2 r.1).1.dev.timers[m] = r.1.dev.timers[m]) ∧
    (∀ m : Fin 4, m.val = n.val + 1 → (timerCycle n r.2 r.1).2 = timerCarry s.dev m) := by
  obtain ⟨own, others, overflow⟩ := timerCycle_timers n r.1 r.2
  rw [fresh, carry] at own overflow
  exact ⟨carry ▸ own, others, fun m hm => (timerCarry_succ s.dev hm).symm ▸ carry ▸ overflow⟩

/-- A cycle of all timers: each by itself and the overflow of the timer before it (R536, R538). -/
theorem timersCycle_timers (n : Fin 4) (s : State) :
    (timersCycle s).dev.timers[n] = s.dev.timers[n].cycled n (timerCarry s.dev n) := by
  let r0 := timerCycle 0 false s
  let r1 := timerCycle 1 r0.2 r0.1
  let r2 := timerCycle 2 r1.2 r1.1
  let r3 := timerCycle 3 r2.2 r2.1
  obtain ⟨own0, rest0, o0⟩ := timerCycle_turn (n := 0) (s := s) (r := (s, false)) rfl rfl
  obtain ⟨own1, rest1, o1⟩ := timerCycle_turn (n := 1) (s := s) (r := r0) (rest0 1 (by decide)) (o0 1 rfl)
  obtain ⟨own2, rest2, o2⟩ := timerCycle_turn (n := 2) (s := s) (r := r1)
    ((rest1 2 (by decide)).trans (rest0 2 (by decide))) (o1 2 rfl)
  obtain ⟨own3, rest3, -⟩ := timerCycle_turn (n := 3) (s := s) (r := r2)
    ((rest2 3 (by decide)).trans ((rest1 3 (by decide)).trans (rest0 3 (by decide)))) (o2 3 rfl)
  show r3.1.dev.timers[n] = _
  match n with
  | 0 => exact (rest3 0 (by decide)).trans ((rest2 0 (by decide)).trans ((rest1 0 (by decide)).trans own0))
  | 1 => exact (rest3 1 (by decide)).trans ((rest2 1 (by decide)).trans own1)
  | 2 => exact (rest3 2 (by decide)).trans own2
  | 3 => exact own3

/-- A cycle counts the ticks and leaves a timer's settings (R536, R538). -/
theorem Timer.cycled_fields (t : Timer) (n : Fin 4) (carry : Bool) :
    (t.cycled n carry).counter =
      (if t.ticks n carry then (if t.counter = 0xFFFF then t.reload else t.counter + 1) else t.counter) ∧
    (t.cycled n carry).reload = t.reload ∧ (t.cycled n carry).prescaler = t.prescaler ∧
    (t.cycled n carry).cascade = t.cascade ∧ (t.cycled n carry).irq = t.irq ∧
    (t.cycled n carry).enable = t.enable := by
  unfold Timer.cycled Timer.ticks
  cases on : t.enable with
  | false => simp [on]
  | true =>
    cases cascades : t.cascades n with
    | true => cases carry <;> simp [on, Timer.ticked]
    | false => cases period : t.periodEnds <;> simp [Timer.ticked]

-- Many cycles

theorem timersAdvance_succ (k : Nat) (s : State) : timersAdvance (k + 1) s = timersAdvance k (timersCycle s) := rfl

/-- A stopped timer keeps still (R536). -/
theorem Timer.cycled_stopped {t : Timer} (h : t.enable = false) (n : Fin 4) (carry : Bool) : t.cycled n carry = t :=
  if_pos (by rw [h]; rfl)

theorem timersAdvance_stopped {n : Fin 4} (k : Nat) {s : State} (h : s.dev.timers[n].enable = false) :
    (timersAdvance k s).dev.timers[n] = s.dev.timers[n] := by
  induction k generalizing s with
  | zero => rfl
  | succ k ih =>
    have still : (timersCycle s).dev.timers[n] = s.dev.timers[n] := by rw [timersCycle_timers, Timer.cycled_stopped h]
    rw [timersAdvance_succ, ih (by rw [still, h]), still]

/-- A timer that cascades from a stopped one keeps still (R538). -/
theorem timersAdvance_cascade_stopped {n m : Fin 4} (next : n.val = m.val + 1) (k : Nat) {s : State}
    (cascade : s.dev.timers[n].cascade = true) (h : s.dev.timers[m].enable = false) :
    (timersAdvance k s).dev.timers[n] = s.dev.timers[n] := by
  induction k generalizing s with
  | zero => rfl
  | succ k ih =>
    have noCarry : timerCarry s.dev n = false := by
      rw [timerCarry_succ _ next]
      unfold Timer.ticks
      rw [h, Bool.false_and, Bool.false_and]
    have cascades : s.dev.timers[n].cascades n = true := by
      have later : n ≠ 0 := fun e => by rw [e] at next; exact absurd next (Nat.succ_ne_zero _).symm
      unfold Timer.cascades
      rw [cascade]
      simpa using later
    have still : (timersCycle s).dev.timers[n] = s.dev.timers[n] := by
      rw [timersCycle_timers, noCarry]
      by_cases off : (!s.dev.timers[n].enable) = true
      · exact if_pos off
      · exact (if_neg off).trans ((if_pos cascades).trans (if_neg Bool.false_ne_true))
    have stopped : (timersCycle s).dev.timers[m] = s.dev.timers[m] := by
      rw [timersCycle_timers, Timer.cycled_stopped h]
    rw [timersAdvance_succ, ih (by rw [still, cascade]) (by rw [stopped, h]), still]

/-- The cycles of a prescaler period (R535). -/
def Timer.period (t : Timer) : Nat := [1, 64, 256, 1024].getD t.prescaler.toNat 1

/-- One cycle of a timer that counts cycles (R536). -/
theorem Timer.cycled_counting {t : Timer} {n : Fin 4} (on : t.enable = true) (free : t.cascades n = false) (carry : Bool) :
    t.cycled n carry = if t.period ≤ t.count + 1 then { t with count := 0 }.ticked else { t with count := t.count + 1 } := by
  refine (if_neg (by rw [on]; decide)).trans ((if_neg (by rw [free]; decide)).trans ?_)
  unfold Timer.periodEnds Timer.period
  simp only [decide_eq_true_eq]

/-- Any number of cycles without an overflow: one count for each whole period, the remainder kept (R535, R536). -/
theorem timersAdvance_counting {n : Fin 4} (k : Nat) {s : State} (on : s.dev.timers[n].enable = true)
    (free : s.dev.timers[n].cascades n = false) (below : s.dev.timers[n].count < s.dev.timers[n].period)
    (room : s.dev.timers[n].counter.toNat + (s.dev.timers[n].count + k) / s.dev.timers[n].period < 0x10000) :
    (timersAdvance k s).dev.timers[n].counter.toNat =
      s.dev.timers[n].counter.toNat + (s.dev.timers[n].count + k) / s.dev.timers[n].period ∧
    (timersAdvance k s).dev.timers[n].count = (s.dev.timers[n].count + k) % s.dev.timers[n].period ∧
    (timersAdvance k s).dev.timers[n].reload = s.dev.timers[n].reload ∧
    (timersAdvance k s).dev.timers[n].enable = true := by
  induction k generalizing s with
  | zero => exact ⟨by rw [Nat.add_zero, Nat.div_eq_of_lt below]; rfl, (Nat.mod_eq_of_lt below).symm, rfl, on⟩
  | succ k ih =>
    have cycle := (timersCycle_timers n s).trans (Timer.cycled_counting on free _)
    rw [timersAdvance_succ]
    generalize s.dev.timers[n] = t at *
    by_cases full : t.period ≤ t.count + 1
    · have count : t.count + (k + 1) = k + t.period := by omega
      have steps : (t.count + (k + 1)) / t.period = k / t.period + 1 := by
        rw [count, Nat.add_div_right _ (by omega)]
      have more : t.counter ≠ 0xFFFF := by
        rintro e
        rw [steps, e] at room
        generalize k / t.period = q at room
        exact absurd room (by show ¬0xFFFF + (q + 1) < 0x10000; omega)
      have next : (timersCycle s).dev.timers[n] = { t with counter := t.counter + 1, count := 0 } := by
        rw [cycle, if_pos full]
        unfold Timer.ticked
        rw [if_neg more]
      have value : (t.counter + 1).toNat = t.counter.toNat + 1 := by
        have bound := (BitVec.toNat_ne_iff_ne (x := t.counter) (y := 0xFFFF)).mpr more
        bv_omega
      obtain ⟨counter, rest, reload, enable⟩ := ih (s := timersCycle s) (by rw [next]; exact on) (by rw [next]; exact free)
        (by rw [next]; show 0 < t.period; omega) (by
          rw [next]
          show (t.counter + 1).toNat + (0 + k) / t.period < _
          rw [value, Nat.zero_add]
          omega)
      rw [next] at counter rest reload
      refine ⟨?_, ?_, reload, enable⟩
      · rw [counter]
        show (t.counter + 1).toNat + (0 + k) / t.period = _
        rw [value, Nat.zero_add, steps]
        omega
      · rw [rest]
        show (0 + k) % t.period = _
        rw [Nat.zero_add, count, Nat.add_mod_right]
    · have next : (timersCycle s).dev.timers[n] = { t with count := t.count + 1 } := by rw [cycle, if_neg full]
      have moved : t.count + 1 + k = t.count + (k + 1) := by omega
      have rest := ih (s := timersCycle s) (by rw [next]; exact on) (by rw [next]; exact free)
        (by rw [next]; show t.count + 1 < t.period; omega) (by
          rw [next]
          show t.counter.toNat + (t.count + 1 + k) / t.period < _
          rwa [moved])
      rw [next] at rest
      rw [← moved]
      exact rest

-- The registers of a timer

/-- Where the registers of a timer lie (R535, R580). -/
theorem ioRegAt_timer : ∀ (n : Fin 4) (k : Fin 4),
    ioRegAt (0x100 + 4 * n.val + k.val) = if k.val < 2 then (.tmCntL n, k.val) else (.tmCntH n, k.val - 2) := by decide

section
variable (n : Fin 4) {s : State} (gba : s.bus = Bus.gba) (v : Word)

/-- A timer with its control halfword written (R535, R537). -/
def Timer.controlled (t : Timer) (v : Word) : Timer := (t.writeCtl 0 (getByte v 0)).writeCtl 1 (getByte v 1)

theorem Timer.controlled_eq (t : Timer) (v : Word) :
    t.controlled v = { t with
      prescaler := v.extractLsb' 0 2, cascade := v.getLsbD 2, irq := v.getLsbD 6, enable := v.getLsbD 7
      counter := if v.getLsbD 7 && !t.enable then t.reload else t.counter
      count := if v.getLsbD 7 && !t.enable then 0 else t.count } := by
  have field : (getByte v 0).extractLsb' 0 2 = v.extractLsb' 0 2 := by
    refine BitVec.eq_of_getLsbD_eq fun i hi => ?_
    rw [BitVec.getLsbD_extractLsb', BitVec.getLsbD_extractLsb', getLsbD_getByte]
    simp [show i < 8 by omega]
  have bit {k : Nat} (hk : k < 8) : (getByte v 0).getLsbD k = v.getLsbD k := by
    rw [getLsbD_getByte, decide_eq_true hk, Bool.true_and, Nat.mul_zero, Nat.zero_add]
  have edge : t.controlled v = t.writeCtl 0 (getByte v 0) := by
    unfold Timer.controlled
    exact if_neg one_ne_zero
  rw [edge]
  unfold Timer.writeCtl
  rw [bit (show 7 < 8 by decide), bit (show 2 < 8 by decide), bit (show 6 < 8 by decide), field]
  cases v.getLsbD 7 && !t.enable <;> rfl

/-- `TMnCNT_H` as read, bit by bit (R535). -/
theorem getLsbD_ctlHalf (t : Timer) {k : Nat} (hk : k < 16) :
    t.ctlHalf.getLsbD k =
      if k < 2 then t.prescaler.getLsbD k else (k == 2 && t.cascade) || (k == 6 && t.irq) || (k == 7 && t.enable) := by
  unfold Timer.ctlHalf
  simp only [BitVec.getLsbD_append, BitVec.getLsbD_ofBool, BitVec.getLsbD_zero]
  interval_cases k <;> simp

/-- The address of the lower half of a timer (R535). -/
theorem timerAddress : (0x04000100 : Word) + BitVec.ofNat 32 (4 * n.val) = ioAddress (0x100 + 4 * n.val) ∧
    (0x04000100 : Word) + BitVec.ofNat 32 (4 * n.val) + 2 = ioAddress (0x100 + 4 * n.val + 2) := by revert n; decide

include gba

theorem busWrite_tmCntL : busWrite (ioAddress (0x100 + 4 * n.val)) .half v s =
    s.setDev (s.dev.setTimer n { s.dev.timers[n] with reload := v.extractLsb' 0 16 }) := by
  have low : ioRegAt (0x100 + 4 * n.val) = (.tmCntL n, 0) := ioRegAt_timer n 0
  have high : ioRegAt (0x100 + 4 * n.val + 1) = (.tmCntL n, 1) := ioRegAt_timer n 1
  rw [busWrite_io_half gba (by omega), ← putByte_half s.dev.timers[n].reload v]
  simp only [ioWrite, low, high]
  simp [State.setDev, Devices.setTimer]

theorem busWrite_tmCntH : busWrite (ioAddress (0x100 + 4 * n.val + 2)) .half v s =
    s.setDev (s.dev.setTimer n (s.dev.timers[n].controlled v)) := by
  have low : ioRegAt (0x100 + 4 * n.val + 2) = (.tmCntH n, 0) := ioRegAt_timer n 2
  have high : ioRegAt (0x100 + 4 * n.val + 2 + 1) = (.tmCntH n, 1) := ioRegAt_timer n 3
  rw [busWrite_io_half gba (by omega)]
  simp only [ioWrite, low, high]
  simp [State.setDev, Devices.setTimer, Timer.controlled]

theorem cpuRead_tmCntL :
    cpuRead (ioAddress (0x100 + 4 * n.val)) .half s = (s.dev.timers[n].counter.zeroExtend 32, s) := by
  have low : ioRegAt (0x100 + 4 * n.val) = (.tmCntL n, 0) := ioRegAt_timer n 0
  have high : ioRegAt (0x100 + 4 * n.val + 1) = (.tmCntL n, 1) := ioRegAt_timer n 1
  exact cpuRead_io_half gba (by omega) (by simp only [ioRead, low]) (by simp only [ioRead, high])

theorem cpuRead_tmCntH :
    cpuRead (ioAddress (0x100 + 4 * n.val + 2)) .half s = (s.dev.timers[n].ctlHalf.zeroExtend 32, s) := by
  have low : ioRegAt (0x100 + 4 * n.val + 2) = (.tmCntH n, 0) := ioRegAt_timer n 2
  have high : ioRegAt (0x100 + 4 * n.val + 2 + 1) = (.tmCntH n, 1) := ioRegAt_timer n 3
  exact cpuRead_io_half gba (by omega) (by simp only [ioRead, low]) (by simp only [ioRead, high])

end

/-- The drains that an overflow of a timer signals, by the upper byte of `SOUNDCNT_H` (R536, R561). -/
def Devices.signalled (d : Devices) (high : Byte) (n : Fin 4) : Devices :=
  let d2 := if fifoTimer (high.getLsbD 2) = n then { d with fifoA := d.fifoA.signal } else d
  if fifoTimer (high.getLsbD 6) = n then { d2 with fifoB := d2.fifoB.signal } else d2

theorem timerOverflow_eq (n : Fin 4) (irq : Bool) (s : State) : timerOverflow n irq s =
    s.setDev ((if irq then s.dev.request (3 + n.val) else s.dev).signalled s.soundCntHigh n) := rfl

theorem Devices.signalled_signals (d : Devices) (high : Byte) (n : Fin 4) :
    (d.signalled high n).iflags = d.iflags ∧
    (d.signalled high n).fifoA.drains = d.fifoA.drains + (if (if high.getLsbD 2 then 1 else 0) = n.val then 1 else 0) ∧
    (d.signalled high n).fifoB.drains = d.fifoB.drains + (if (if high.getLsbD 6 then 1 else 0) = n.val then 1 else 0) := by
  have selects (b : Bool) : fifoTimer b = n ↔ (if b then 1 else 0) = n.val := by
    rw [Fin.ext_iff]
    cases b <;> rfl
  unfold Devices.signalled
  simp only [← selects]
  by_cases hA : fifoTimer (high.getLsbD 2) = n <;> by_cases hB : fifoTimer (high.getLsbD 6) = n <;>
    simp only [hA, hB, if_true, if_false, Fifo.signal, Nat.add_zero, and_self]

/-- What an overflow signals: one drain to each FIFO that selects the timer, and its request where it is enabled (R536). -/
theorem timerOverflow_signals (n : Fin 4) (irq : Bool) (s : State) :
    (∀ j < 14, (timerOverflow n irq s).dev.iflags.getLsbD j = true ↔
      s.dev.iflags.getLsbD j = true ∨ (j = 3 + n.val ∧ irq = true)) ∧
    (timerOverflow n irq s).dev.fifoA.drains =
      s.dev.fifoA.drains + (if (if s.soundCntHigh.getLsbD 2 then 1 else 0) = n.val then 1 else 0) ∧
    (timerOverflow n irq s).dev.fifoB.drains =
      s.dev.fifoB.drains + (if (if s.soundCntHigh.getLsbD 6 then 1 else 0) = n.val then 1 else 0) := by
  have requested : (∀ j < 14, (if irq then s.dev.request (3 + n.val) else s.dev).iflags.getLsbD j = true ↔
        s.dev.iflags.getLsbD j = true ∨ (j = 3 + n.val ∧ irq = true)) ∧
      (if irq then s.dev.request (3 + n.val) else s.dev).fifoA = s.dev.fifoA ∧
      (if irq then s.dev.request (3 + n.val) else s.dev).fifoB = s.dev.fifoB := by
    cases irq with
    | false => exact ⟨fun j _ => by simp, rfl, rfl⟩
    | true => exact ⟨fun j hj => by simp [s.dev.request_iflags (3 + n.val) hj], rfl, rfl⟩
  obtain ⟨flags, queueA, queueB⟩ := requested
  rw [timerOverflow_eq]
  generalize (if irq then s.dev.request (3 + n.val) else s.dev) = d at *
  obtain ⟨sameFlags, signalA, signalB⟩ := d.signalled_signals s.soundCntHigh n
  refine ⟨fun j hj => ?_, ?_, ?_⟩
  · rw [← flags j hj, ← sameFlags]
    rfl
  · rw [← queueA]
    exact signalA
  · rw [← queueB]
    exact signalB

/-- Settles O54: each timer by itself and the overflow of the timer before it, and its registers by their bytes. -/
theorem timersCount : Obligations.TimersCount := by
  refine ⟨fun n cycles s => ?_, fun n s full => ?_, fun n s notFull => ?_, fun n s => ?_,
    fun n m cycles s next cascade off => timersAdvance_cascade_stopped next cycles cascade off,
    fun n cycles s off => timersAdvance_stopped cycles off, fun n v s gba => ?_⟩
  · intro t u period on free below room
    refine timersAdvance_counting cycles on ?_ below room
    unfold Timer.cascades
    rcases free with h | rfl
    · exact (congrArg (· && n != 0) h).trans (Bool.false_and _)
    · exact Bool.and_false _
  · obtain ⟨own, -, overflow⟩ := timerTick_timers n s
    have tick : (timerTick n s).1 = timerOverflow n s.dev.timers[n].irq
        (s.setDev (s.dev.setTimer n { s.dev.timers[n] with counter := s.dev.timers[n].reload })) := by
      simp only [timerTick, full, if_true]
    refine ⟨by rw [overflow, full]; rfl, by rw [own]; unfold Timer.ticked; rw [if_pos full], ?_⟩
    rw [tick]
    exact timerOverflow_signals n s.dev.timers[n].irq _
  · simp only [timerTick, notFull, if_false]
  · have cycle : (timersAdvance 1 s).dev.timers[n] = s.dev.timers[n].cycled n (timerCarry s.dev n) :=
      timersCycle_timers n s
    rw [timerTicks_eq]
    simp only [cycle]
    exact Timer.cycled_fields _ n _
  · intro t low u r
    obtain ⟨lowAddress, highAddress⟩ := timerAddress n
    have read : r = (t.ctlHalf.zeroExtend 32, s) := (congrArg (cpuRead · .half s) highAddress).trans (cpuRead_tmCntH n gba)
    have written : u = t.controlled v := by
      show (busWrite (low + 2) .half v s).dev.timers[n] = _
      rw [show low + 2 = _ from highAddress, busWrite_tmCntH n gba]
      exact Devices.setTimer_same n _ _
    have bit {k : Nat} (hk : k < 16) : r.1.getLsbD k = t.ctlHalf.getLsbD k := by
      rw [read, getLsbD_zeroExtend_half _ hk]
    rw [show low = _ from lowAddress] at *
    refine ⟨⟨cpuRead_tmCntL n gba, busWrite_tmCntL n gba v⟩, ⟨by rw [read], ?_, ?_, ?_, ?_, ?_, ?_⟩, ?_⟩
    · rw [read]
      refine extract_half (by decide) fun i hi => ?_
      rw [getLsbD_ctlHalf _ (by omega), Nat.zero_add, if_pos hi]
    · rw [bit (by decide), getLsbD_ctlHalf _ (by decide)]
      simp
    · rw [read]
      refine extract_half (by decide) fun i hi => ?_
      rw [getLsbD_ctlHalf _ (by omega)]
      interval_cases i <;> simp
    · rw [bit (by decide), getLsbD_ctlHalf _ (by decide)]
      simp
    · rw [bit (by decide), getLsbD_ctlHalf _ (by decide)]
      simp
    · refine BitVec.eq_of_getLsbD_eq fun i hi => ?_
      rw [read, BitVec.getLsbD_extractLsb', BitVec.getLsbD_setWidth]
      by_cases inside : i < 8
      · rw [getLsbD_ctlHalf _ (by omega)]
        interval_cases i <;> simp
      · simp [BitVec.getLsbD_of_ge t.ctlHalf (8 + i) (by omega)]
    · rw [written, Timer.controlled_eq]
      refine ⟨rfl, rfl, rfl, rfl, rfl, fun ⟨starts, off⟩ => ?_, fun runs => ?_⟩
      · simp [starts, off]
      · have noEdge : (v.getLsbD 7 && !t.enable) = false := by
          by_contra h
          simp only [Bool.not_eq_false, Bool.and_eq_true, Bool.not_eq_true'] at h
          exact runs h
        simp only [noEdge]
        exact ⟨rfl, rfl⟩

/-!
PROOFS. The DMA registers (spec/60_exceptions.md section 5, rules R540 to R542): each by its bytes, and the control
register as one write of its halfword.
-/

/-- Where the registers of a DMA channel lie (R540, R580). -/
theorem ioRegAt_dma : ∀ (n : Fin 4) (k : Fin 12),
    ioRegAt (0xB0 + 12 * n.val + k.val) =
      if k.val < 4 then (.dmaSad n, k.val) else if k.val < 8 then (.dmaDad n, k.val - 4)
      else if k.val < 10 then (.dmaCntL n, k.val - 8) else (.dmaCntH n, k.val - 10) := by decide

-- The control register

/-- A channel with its control halfword written, byte by byte (R541). -/
def DmaChannel.controlled (c : DmaChannel) (n : Fin 4) (v : Word) : DmaChannel :=
  let c1 := c.writeCtl n (putByte c.ctl 0 (getByte v 0))
  c1.writeCtl n (putByte c1.ctl 1 (getByte v 1))

theorem dmaCtlMask_high (n : Fin 4) {k : Nat} (h12 : 12 ≤ k) (h16 : k < 16) : (dmaCtlMask n).getLsbD k = true := by
  unfold dmaCtlMask
  split <;> interval_cases k <;> rfl

/-- The upper bits of the control register that its lower byte leaves. -/
theorem getLsbD_low_written (c : DmaChannel) (n : Fin 4) (b : Byte) {k : Nat} (h12 : 12 ≤ k) (h16 : k < 16) :
    (putByte c.ctl 0 b &&& dmaCtlMask n).getLsbD k = c.ctl.getLsbD k := by
  rw [BitVec.getLsbD_and, dmaCtlMask_high n h12 h16, Bool.and_true, getLsbD_putByte _ _ _ h16, if_neg (by omega)]

/-- The lower byte of the control register changes its bits and, of a channel that is not armed, that it is due. -/
theorem DmaChannel.writeCtl_low (c : DmaChannel) (n : Fin 4) (b : Byte) :
    c.writeCtl n (putByte c.ctl 0 b) =
      { c with ctl := putByte c.ctl 0 b &&& dmaCtlMask n, due := c.armed && c.due } := by
  have armed : (putByte c.ctl 0 b &&& dmaCtlMask n).getLsbD 15 = c.armed :=
    getLsbD_low_written c n b (by decide) (by decide)
  have timing : (putByte c.ctl 0 b &&& dmaCtlMask n).extractLsb' 12 2 = c.timing := by
    refine BitVec.eq_of_getLsbD_eq fun i hi => ?_
    rw [BitVec.getLsbD_extractLsb', getLsbD_low_written c n b (by omega) (by omega)]
    exact (BitVec.getLsbD_extractLsb' ..).symm
  unfold DmaChannel.writeCtl
  dsimp only
  rw [show DmaChannel.armed { c with ctl := putByte c.ctl 0 b &&& dmaCtlMask n } = c.armed from armed,
    show DmaChannel.timing { c with ctl := putByte c.ctl 0 b &&& dmaCtlMask n } = c.timing from timing]
  cases c.armed with
  | false => rfl
  | true => simp

/-- The upper bits of the control register are those written (R540). -/
theorem getLsbD_high_written (n : Fin 4) (v : Word) {k : Nat} (h12 : 12 ≤ k) (h16 : k < 16) :
    (v.extractLsb' 0 16 &&& dmaCtlMask n).getLsbD k = v.getLsbD k := by
  rw [BitVec.getLsbD_and, dmaCtlMask_high n h12 h16, Bool.and_true, BitVec.getLsbD_extractLsb', decide_eq_true h16,
    Bool.true_and, Nat.zero_add]

/-- The control register written as a halfword: its bits, and that the channel arms, stays armed or disarms (R541). -/
theorem DmaChannel.controlled_eq (c : DmaChannel) (n : Fin 4) (v : Word) :
    c.controlled n v =
      let c' := { c with ctl := v.extractLsb' 0 16 &&& dmaCtlMask n }
      if v.getLsbD 15 = false then { c' with due := false }
      else if c.armed = false then
        { c' with
          src := c.latchSrc n, dst := c.latchDst n, cnt := c.latchCnt n, due := v.extractLsb' 12 2 == 0 }
      else { c' with due := c.due || (v.extractLsb' 12 2 == 0 && c.timing != 0) } := by
  have bits : putByte (putByte c.ctl 0 (getByte v 0) &&& dmaCtlMask n) 1 (getByte v 1) &&& dmaCtlMask n =
      v.extractLsb' 0 16 &&& dmaCtlMask n := by
    rw [← putByte_half c.ctl v]
    refine BitVec.eq_of_getLsbD_eq fun i hi => ?_
    rw [BitVec.getLsbD_and, BitVec.getLsbD_and, getLsbD_putByte _ _ _ hi, getLsbD_putByte _ _ _ hi]
    split
    · rfl
    · rw [BitVec.getLsbD_and, Bool.and_assoc, Bool.and_self]
  have armed : DmaChannel.armed
      { c with ctl := v.extractLsb' 0 16 &&& dmaCtlMask n, due := c.armed && c.due } = v.getLsbD 15 :=
    getLsbD_high_written n v (by decide) (by decide)
  have timing : DmaChannel.timing
      { c with ctl := v.extractLsb' 0 16 &&& dmaCtlMask n, due := c.armed && c.due } = v.extractLsb' 12 2 := by
    refine BitVec.eq_of_getLsbD_eq fun i hi => ?_
    refine (BitVec.getLsbD_extractLsb' ..).trans ?_
    rw [getLsbD_high_written n v (by omega) (by omega), BitVec.getLsbD_extractLsb']
  have armedLow : DmaChannel.armed
      { c with ctl := putByte c.ctl 0 (getByte v 0) &&& dmaCtlMask n, due := c.armed && c.due } = c.armed :=
    getLsbD_low_written c n _ (by decide) (by decide)
  have timingLow : DmaChannel.timing
      { c with ctl := putByte c.ctl 0 (getByte v 0) &&& dmaCtlMask n, due := c.armed && c.due } = c.timing := by
    refine BitVec.eq_of_getLsbD_eq fun i hi => ?_
    refine (BitVec.getLsbD_extractLsb' ..).trans ?_
    rw [getLsbD_low_written c n _ (by omega) (by omega)]
    exact (BitVec.getLsbD_extractLsb' ..).symm
  unfold DmaChannel.controlled
  dsimp only
  rw [DmaChannel.writeCtl_low]
  unfold DmaChannel.writeCtl
  dsimp only
  rw [bits, armedLow, timingLow, armed, timing]
  cases v.getLsbD 15 with
  | false => rfl
  | true => cases c.armed <;> rfl

section
variable (n : Fin 4) {s : State} (gba : s.bus = Bus.gba) (v : Word)
include gba

theorem busWrite_dmaSad : busWrite (ioAddress (0xB0 + 12 * n.val)) .word v s =
    s.setDev (s.dev.setDma n { s.dev.dma[n] with sad := v }) := by
  have r0 : ioRegAt (0xB0 + 12 * n.val) = (.dmaSad n, 0) := ioRegAt_dma n 0
  have r1 : ioRegAt (0xB0 + 12 * n.val + 1) = (.dmaSad n, 1) := ioRegAt_dma n 1
  have r2 : ioRegAt (0xB0 + 12 * n.val + 2) = (.dmaSad n, 2) := ioRegAt_dma n 2
  have r3 : ioRegAt (0xB0 + 12 * n.val + 3) = (.dmaSad n, 3) := ioRegAt_dma n 3
  rw [busWrite_io_word gba (by omega)]
  simp only [ioWrite, r0, r1, r2, r3]
  simp [State.setDev, Devices.setDma, putByte_word]

theorem busWrite_dmaDad : busWrite (ioAddress (0xB0 + 12 * n.val + 4)) .word v s =
    s.setDev (s.dev.setDma n { s.dev.dma[n] with dad := v }) := by
  have r0 : ioRegAt (0xB0 + 12 * n.val + 4) = (.dmaDad n, 0) := ioRegAt_dma n 4
  have r1 : ioRegAt (0xB0 + 12 * n.val + 4 + 1) = (.dmaDad n, 1) := ioRegAt_dma n 5
  have r2 : ioRegAt (0xB0 + 12 * n.val + 4 + 2) = (.dmaDad n, 2) := ioRegAt_dma n 6
  have r3 : ioRegAt (0xB0 + 12 * n.val + 4 + 3) = (.dmaDad n, 3) := ioRegAt_dma n 7
  rw [busWrite_io_word gba (by omega)]
  simp only [ioWrite, r0, r1, r2, r3]
  simp [State.setDev, Devices.setDma, putByte_word]

theorem busWrite_dmaCntL : busWrite (ioAddress (0xB0 + 12 * n.val + 8)) .half v s =
    s.setDev (s.dev.setDma n { s.dev.dma[n] with cntL := v.extractLsb' 0 16 }) := by
  have r0 : ioRegAt (0xB0 + 12 * n.val + 8) = (.dmaCntL n, 0) := ioRegAt_dma n 8
  have r1 : ioRegAt (0xB0 + 12 * n.val + 8 + 1) = (.dmaCntL n, 1) := ioRegAt_dma n 9
  rw [busWrite_io_half gba (by omega)]
  simp only [ioWrite, r0, r1]
  simp [State.setDev, Devices.setDma, putByte_half]

theorem busWrite_dmaCntH : busWrite (ioAddress (0xB0 + 12 * n.val + 10)) .half v s =
    s.setDev (s.dev.setDma n (s.dev.dma[n].controlled n v)) := by
  have r0 : ioRegAt (0xB0 + 12 * n.val + 10) = (.dmaCntH n, 0) := ioRegAt_dma n 10
  have r1 : ioRegAt (0xB0 + 12 * n.val + 10 + 1) = (.dmaCntH n, 1) := ioRegAt_dma n 11
  rw [busWrite_io_half gba (by omega)]
  simp only [ioWrite, r0, r1]
  simp [State.setDev, Devices.setDma, DmaChannel.controlled]

theorem cpuRead_dmaCntH :
    cpuRead (ioAddress (0xB0 + 12 * n.val + 10)) .half s = (s.dev.dma[n].ctl.zeroExtend 32, s) := by
  have r0 : ioRegAt (0xB0 + 12 * n.val + 10) = (.dmaCntH n, 0) := ioRegAt_dma n 10
  have r1 : ioRegAt (0xB0 + 12 * n.val + 10 + 1) = (.dmaCntH n, 1) := ioRegAt_dma n 11
  exact cpuRead_io_half gba (by omega) (by simp only [ioRead, r0]) (by simp only [ioRead, r1])

end

/-- The addresses of the registers of a channel (R540). -/
theorem dmaAddress (n : Fin 4) :
    let base : Word := 0x040000B0 + BitVec.ofNat 32 (12 * n.val)
    base = ioAddress (0xB0 + 12 * n.val) ∧ base + 4 = ioAddress (0xB0 + 12 * n.val + 4) ∧
    base + 8 = ioAddress (0xB0 + 12 * n.val + 8) ∧ base + 10 = ioAddress (0xB0 + 12 * n.val + 10) ∧
    (0x040000BA : Word) + BitVec.ofNat 32 (12 * n.val) = ioAddress (0xB0 + 12 * n.val + 10) := by revert n; decide

/-- What arming latches, as numbers (R540). -/
theorem DmaChannel.latched (c : DmaChannel) (n : Fin 4) :
    let max := if n = 3 then 0x10000 else 0x4000
    (c.latchSrc n).toNat = c.sad.toNat % (if n = 0 then 2 ^ 27 else 2 ^ 28) ∧
    (c.latchDst n).toNat = c.dad.toNat % (if n = 3 then 2 ^ 28 else 2 ^ 27) ∧
    c.latchCnt n = (if c.cntL.toNat % max = 0 then max else c.cntL.toNat % max) := by
  have masked (x : Word) : (x &&& 0x07FFFFFF).toNat = x.toNat % 2 ^ 27 ∧ (x &&& 0x0FFFFFFF).toNat = x.toNat % 2 ^ 28 :=
    ⟨by rw [BitVec.toNat_and]; exact Nat.and_two_pow_sub_one_eq_mod _ 27,
      by rw [BitVec.toNat_and]; exact Nat.and_two_pow_sub_one_eq_mod _ 28⟩
  refine ⟨?_, ?_, ?_⟩
  · unfold DmaChannel.latchSrc
    split
    · exact (masked _).1
    · exact (masked _).2
  · unfold DmaChannel.latchDst
    split
    · exact (masked _).2
    · exact (masked _).1
  · unfold DmaChannel.latchCnt
    by_cases h : n = 3
    · have range := c.cntL.isLt
      simp only [h, if_true, Nat.mod_eq_of_lt range]
      simp only [← BitVec.toNat_inj]
      rfl
    · have field : (c.cntL.extractLsb' 0 14).toNat = c.cntL.toNat % 0x4000 := by
        rw [BitVec.extractLsb'_toNat, Nat.shiftRight_zero]
      simp only [h, if_false, field]

/-- Settles O55: the registers of a channel by their bytes, and the control register as one write of its halfword. -/
theorem dmaArming : Obligations.DmaArming := by
  intro n v s gba c e base max
  obtain ⟨sadAddress, dadAddress, cntAddress, ctlAddress, ctlAddress'⟩ := dmaAddress n
  have written : e = c.controlled n v := by
    show (busWrite _ .half v s).dev.dma[n] = _
    rw [ctlAddress', busWrite_dmaCntH n gba]
    simp [State.setDev, Devices.setDma, c]
  obtain ⟨latchSrc, latchDst, latchCnt⟩ := c.latched n
  clear_value e
  subst written
  rw [show base + 4 = _ from dadAddress, show base + 8 = _ from cntAddress, show base + 10 = _ from ctlAddress,
    show base = _ from sadAddress]
  refine ⟨busWrite_dmaSad n gba v, busWrite_dmaDad n gba v, busWrite_dmaCntL n gba v, cpuRead_dmaCntH n gba,
    busWrite_dmaCntH n gba v, ?_⟩
  rw [DmaChannel.controlled_eq]
  clear_value c
  cases on : v.getLsbD 15 with
  | false => exact ⟨rfl, rfl, rfl, rfl, fun h => Bool.noConfusion h, fun h => Bool.noConfusion h,
      fun _ => ⟨(getLsbD_high_written n v (by decide) (by decide)).trans on, rfl⟩⟩
  | true =>
    cases armed : c.armed with
    | false =>
      exact ⟨rfl, rfl, rfl, rfl, fun _ _ => ⟨latchSrc, latchDst, latchCnt, beq_iff_eq⟩, fun _ h => Bool.noConfusion h,
        fun h => Bool.noConfusion h⟩
    | true =>
      refine ⟨rfl, rfl, rfl, rfl, fun _ h => Bool.noConfusion h, fun _ _ => ⟨rfl, rfl, rfl, ?_⟩,
        fun h => Bool.noConfusion h⟩
      simp

end Sys2Proof.Machine

/-!
PROOFS. The PCM FIFOs (spec/60_exceptions.md section 7, rules R560 to R562): pushes by their list of bytes, and the drains
of an advance by what each takes and makes due.
-/

namespace Sys2Proof.Machine

-- Pushes

theorem Fifo.push_bytes (q : Fifo) (b : Byte) :
    (q.push b).bytes = if q.bytes.length < 32 then q.bytes ++ [b] else q.bytes := by
  unfold Fifo.push
  split <;> rfl

/-- Bytes pushed in order join the end of the queue, up to 32 bytes in all (R560). -/
theorem Fifo.foldl_push (bs : List Byte) {q : Fifo} (h : q.bytes.length ≤ 32) :
    bs.foldl Fifo.push q = { q with bytes := (q.bytes ++ bs).take 32 } := by
  induction bs generalizing q with
  | nil =>
    rw [List.append_nil, List.take_of_length_le h]
    rfl
  | cons b bs ih =>
    have drains : (q.push b).drains = q.drains := by
      unfold Fifo.push
      split <;> rfl
    rw [List.foldl_cons, ih (Fifo.push_length q b h), drains, Fifo.push_bytes]
    by_cases room : q.bytes.length < 32
    · rw [if_pos room, List.append_assoc, List.singleton_append]
    · have full : q.bytes.length = 32 := by omega
      rw [if_neg room, List.take_append_of_le_length full.ge, List.take_append_of_le_length full.ge]

section
variable {s : State} (gba : s.bus = Bus.gba) (v : Word)
include gba

theorem busWrite_fifoA (h : s.dev.fifoA.bytes.length ≤ 32) : busWrite (ioAddress 0xA0) .word v s =
    s.setDev { s.dev with fifoA := { s.dev.fifoA with
      bytes := (s.dev.fifoA.bytes ++ [getByte v 0, getByte v 1, getByte v 2, getByte v 3]).take 32 } } := by
  rw [busWrite_io_word gba (by decide), ← Fifo.foldl_push _ h]
  rfl

theorem busWrite_fifoB (h : s.dev.fifoB.bytes.length ≤ 32) : busWrite (ioAddress 0xA4) .word v s =
    s.setDev { s.dev with fifoB := { s.dev.fifoB with
      bytes := (s.dev.fifoB.bytes ++ [getByte v 0, getByte v 1, getByte v 2, getByte v 3]).take 32 } } := by
  rw [busWrite_io_word gba (by decide), ← Fifo.foldl_push _ h]
  rfl

/-- `SOUNDCNT_H` written as a halfword: the queues it empties, and its two bytes, the upper one without the bits that
empty them (R561). -/
theorem busWrite_soundCntH : busWrite (ioAddress 0x82) .half v s =
    (s.setMem ((s.mem.write (ioCell 0x82) (getByte v 0)).write (ioCell 0x83) (getByte v 1 &&& 0x77#8))).setDev
      { s.dev with
        fifoA := { s.dev.fifoA with bytes := if v.getLsbD 11 then [] else s.dev.fifoA.bytes }
        fifoB := { s.dev.fifoB with bytes := if v.getLsbD 15 then [] else s.dev.fifoB.bytes } } := by
  have bit3 : (getByte v 1).getLsbD 3 = v.getLsbD 11 := getLsbD_getByte v 1 3
  have bit7 : (getByte v 1).getLsbD 7 = v.getLsbD 15 := getLsbD_getByte v 1 7
  rw [busWrite_io_half gba (by decide)]
  show writeSoundCntH (writeSoundCntH s 0 (getByte v 0)) 1 (getByte v 1) = _
  simp only [writeSoundCntH, if_true, if_neg one_ne_zero, bit3, bit7]
  cases v.getLsbD 11 <;> cases v.getLsbD 15 <;> rfl

end

/-- The bytes of `SOUNDCNT_H` as it is stored (R561). -/
theorem soundCntH_bytes (v : Word) :
    getByte v 0 = getByte (v &&& 0x77FF#32) 0 ∧ getByte v 1 &&& 0x77#8 = getByte (v &&& 0x77FF#32) 1 := by
  constructor
  · refine BitVec.eq_of_getLsbD_eq fun i hi => ?_
    rw [getLsbD_getByte, getLsbD_getByte, BitVec.getLsbD_and]
    interval_cases i <;> simp
  · refine BitVec.eq_of_getLsbD_eq fun i hi => ?_
    rw [BitVec.getLsbD_and, getLsbD_getByte, getLsbD_getByte, BitVec.getLsbD_and]
    interval_cases i <;> simp

-- Drains

/-- An address of the default map is that of an I/O register only where it is its own (R88, R580). -/
theorem isIoAddress_gba {off : Nat} (h : off < 0x400) (a : Word) : isIoAddress Bus.gba off a = true ↔ a = ioAddress off := by
  unfold isIoAddress
  rw [Bool.and_eq_true, beq_iff_eq, beq_iff_eq]
  refine ⟨fun ⟨io, place⟩ => (cell_gba_inj (.inr io)).mp ?_, ?_⟩
  · rw [cell_io io, cell_io (region_ioAddress h), place, regionOffset_ioAddress h]
  · rintro rfl
    exact ⟨region_ioAddress h, regionOffset_ioAddress h⟩

/-- A refill request of the FIFO at an I/O offset makes the channel due (R542, R562). -/
def DmaChannel.refilledBy (c : DmaChannel) (bus : Bus) (off : Nat) (n : Fin 4) : Bool :=
  c.armed && (c.fifoMode n && isIoAddress bus off c.dad)

theorem DmaChannel.refilledBy_gba {off : Nat} (h : off < 0x400) (c : DmaChannel) (n : Fin 4) :
    c.refilledBy Bus.gba off n = true ↔
      (n = 1 ∨ n = 2) ∧ c.armed = true ∧ c.timing = 3 ∧ c.dad = ioAddress off := by
  unfold DmaChannel.refilledBy DmaChannel.fifoMode
  simp only [Bool.and_eq_true, Bool.or_eq_true, beq_iff_eq, isIoAddress_gba h]
  tauto

section
variable (bus : Bus) (d : Devices)

theorem drainA_frame : drainA bus d = { d with fifoA := d.fifoA.pop, dma := (drainA bus d).dma } := by
  unfold drainA refill
  dsimp only
  split
  · rw [trigger_frame]
  · rfl

theorem drainB_frame : drainB bus d = { d with fifoB := d.fifoB.pop, dma := (drainB bus d).dma } := by
  unfold drainB refill
  dsimp only
  split
  · rw [trigger_frame]
  · rfl

theorem drainA_dma (n : Fin 4) : (drainA bus d).dma[n] =
    { d.dma[n] with
      due := d.dma[n].due || (decide (d.fifoA.bytes.tail.length ≤ 16) && d.dma[n].refilledBy bus 0xA0 n) } := by
  unfold drainA refill Fifo.pop
  simp only [List.drop_one]
  split
  · next few => rw [trigger_dma, decide_eq_true few]; rfl
  · next many => rw [decide_eq_false many, Bool.false_and, Bool.or_false]

theorem drainB_dma (n : Fin 4) : (drainB bus d).dma[n] =
    { d.dma[n] with
      due := d.dma[n].due || (decide (d.fifoB.bytes.tail.length ≤ 16) && d.dma[n].refilledBy bus 0xA4 n) } := by
  unfold drainB refill Fifo.pop
  simp only [List.drop_one]
  split
  · next few => rw [trigger_dma, decide_eq_true few]; rfl
  · next many => rw [decide_eq_false many, Bool.false_and, Bool.or_false]

end

/-- Any number of drains of a queue, `drain` one of them: the bytes left, and each channel that a request makes due. -/
theorem iterate_drain {drain : Devices → Devices} {queue : Devices → List Byte} {bus : Bus} {off : Nat}
    (pops : ∀ d, queue (drain d) = (queue d).tail)
    (refills : ∀ d (n : Fin 4), (drain d).dma[n] =
      { d.dma[n] with
        due := d.dma[n].due || (decide ((queue d).tail.length ≤ 16) && d.dma[n].refilledBy bus off n) })
    (k : Nat) (d : Devices) :
    queue (iterate drain k d) = (queue d).drop k ∧
    ∀ n : Fin 4, (iterate drain k d).dma[n] =
      { d.dma[n] with
        due := d.dma[n].due ||
          (decide (0 < k ∧ ((queue d).drop k).length ≤ 16) && d.dma[n].refilledBy bus off n) } := by
  induction k generalizing d with
  | zero => exact ⟨rfl, fun n => by simp [iterate]⟩
  | succ k ih =>
    obtain ⟨bytes, channels⟩ := ih (drain d)
    refine ⟨?_, fun n => ?_⟩
    · rw [iterate, bytes, pops, List.drop_tail]
    · rw [iterate, channels n, pops, refills, List.drop_tail]
      have same : DmaChannel.refilledBy
          { d.dma[n] with
            due := d.dma[n].due || (decide ((queue d).tail.length ≤ 16) && d.dma[n].refilledBy bus off n) } bus off n =
          d.dma[n].refilledBy bus off n := rfl
      have asked : (decide ((queue d).tail.length ≤ 16) || decide (0 < k ∧ ((queue d).drop (k + 1)).length ≤ 16)) =
          decide (0 < k + 1 ∧ ((queue d).drop (k + 1)).length ≤ 16) := by
        rw [← Bool.decide_or, decide_eq_decide, List.length_drop, List.length_tail]
        omega
      rw [same]
      simp only [Bool.or_assoc, ← Bool.and_or_distrib_right, asked]

-- The APU advance

theorem soundMaster_eq {s : State} (gba : s.bus = Bus.gba) : s.soundMaster = (byteAt s 0x04000084).getLsbD 7 := by
  have place : cell s.bus 0x04000084 = ioCell 0x84 := by
    rw [gba]
    exact (cell_io (region_ioAddress (off := 0x84) (by decide))).trans
      (congrArg ioCell (regionOffset_ioAddress (off := 0x84) (by decide)))
  unfold State.soundMaster byteAt
  rw [place]

/-- The drains of an advance of both queues: the bytes left, and the channels made due (R561, R562). -/
theorem drained {d e : Devices} (he : e = iterate (drainB Bus.gba) d.fifoB.drains (iterate (drainA Bus.gba) d.fifoA.drains d)) :
    e.fifoA.bytes = d.fifoA.bytes.drop d.fifoA.drains ∧ e.fifoB.bytes = d.fifoB.bytes.drop d.fifoB.drains ∧
    ∀ n : Fin 4, (e.dma[n].due = true ↔ d.dma[n].due = true ∨
      ((n = 1 ∨ n = 2) ∧ d.dma[n].armed = true ∧ d.dma[n].timing = 3 ∧
        ((0 < d.fifoA.drains ∧ (d.fifoA.bytes.drop d.fifoA.drains).length ≤ 16 ∧ d.dma[n].dad = 0x040000A0) ∨
          (0 < d.fifoB.drains ∧ (d.fifoB.bytes.drop d.fifoB.drains).length ≤ 16 ∧ d.dma[n].dad = 0x040000A4)))) := by
  have keepsB (k : Nat) : (iterate (drainA Bus.gba) k d).fifoB = d.fifoB :=
    iterate_induction (P := fun e : Devices => e.fifoB = d.fifoB) (fun e h => by rw [drainA_frame]; exact h) k rfl
  have keepsA (k : Nat) (c : Devices) : (iterate (drainB Bus.gba) k c).fifoA = c.fifoA :=
    iterate_induction (P := fun e : Devices => e.fifoA = c.fifoA) (fun e h => by rw [drainB_frame]; exact h) k rfl
  obtain ⟨bytesA, channelsA⟩ := iterate_drain (drain := drainA Bus.gba) (queue := fun d => d.fifoA.bytes)
    (fun d => by rw [drainA_frame]; exact List.drop_one) (drainA_dma Bus.gba) d.fifoA.drains d
  obtain ⟨bytesB, channelsB⟩ := iterate_drain (drain := drainB Bus.gba) (queue := fun d => d.fifoB.bytes)
    (fun d => by rw [drainB_frame]; exact List.drop_one) (drainB_dma Bus.gba) d.fifoB.drains
    (iterate (drainA Bus.gba) d.fifoA.drains d)
  subst he
  refine ⟨(congrArg Fifo.bytes (keepsA _ _)).trans bytesA, bytesB.trans (by rw [keepsB]), fun n => ?_⟩
  have refilled (off : Nat) (h : off < 0x400) := DmaChannel.refilledBy_gba h d.dma[n] n
  have due := congrArg DmaChannel.due (channelsA n)
  have same : (iterate (drainA Bus.gba) d.fifoA.drains d).dma[n].refilledBy Bus.gba 0xA4 n =
      d.dma[n].refilledBy Bus.gba 0xA4 n := by
    rw [channelsA n]
    rfl
  rw [channelsB n, same, due]
  simp only [Bool.or_eq_true, Bool.and_eq_true, decide_eq_true_eq, refilled _ (show 0xA0 < 0x400 by decide),
    refilled _ (show 0xA4 < 0x400 by decide), keepsB]
  rw [show ioAddress 0xA0 = 0x040000A0 from rfl, show ioAddress 0xA4 = 0x040000A4 from rfl]
  tauto

/-- Settles O58: pushes and drains by the list of bytes, and the sound registers by theirs. -/
theorem fifoDrainAndRefill : Obligations.FifoDrainAndRefill := by
  refine ⟨Fifo.push_bytes, fun d => ?drains, fun v s gba bounded => ?queues, fun v s gba => ?registers, fun s gba => ?advance⟩
  case drains =>
    refine ⟨by rw [drainA_frame]; exact List.drop_one, by rw [drainB_frame]; exact List.drop_one, fun n => ?_, fun n => ?_⟩
    · rw [drainA_dma]
      simp only [Bool.or_eq_true, Bool.and_eq_true, decide_eq_true_eq,
        DmaChannel.refilledBy_gba (show 0xA0 < 0x400 by decide)]
      rfl
    · rw [drainB_dma]
      simp only [Bool.or_eq_true, Bool.and_eq_true, decide_eq_true_eq,
        DmaChannel.refilledBy_gba (show 0xA4 < 0x400 by decide)]
      rfl
  case queues =>
    obtain ⟨boundA, boundB⟩ := bounded
    exact ⟨busWrite_fifoA gba v boundA, busWrite_fifoB gba v boundB⟩
  case registers =>
    intro t
    have written : t = _ := busWrite_soundCntH gba v
    have high : t.mem.read (ioCell 0x83) = getByte v 1 &&& 0x77#8 := by
      rw [written]
      exact (Memory.read_write _ _ _ _).trans (if_pos rfl)
    have low : t.mem.read (ioCell 0x82) = getByte v 0 := by
      rw [written]
      exact (Memory.read_write_other (by decide) _ _).trans ((Memory.read_write _ _ _ _).trans (if_pos rfl))
    have bus : t.bus = Bus.gba := by rw [written]; exact gba
    obtain ⟨master, frame, -⟩ := interruptRegisters.2 0x84 .half v s gba rfl (by
      intro k hk
      simp only [Width.bytes] at hk
      omega)
    refine ⟨by rw [written]; rfl, ?_, ?_, ?_, ?_, master⟩
    · have bytes : ∀ k < Width.half.bytes, 0x82 + k < 0x400 ∧ ioRead t (0x82 + k) = some (getByte (v &&& 0x77FF#32) k) := by
        intro k hk
        simp only [Width.bytes] at hk
        interval_cases k
        · exact ⟨by decide, congrArg some (low.trans (soundCntH_bytes v).1)⟩
        · exact ⟨by decide, congrArg some (high.trans (soundCntH_bytes v).2)⟩
      exact (cpuRead_io bus bytes).trans (congrArg (·, t) (BitVec.and_assoc ..))
    · unfold State.soundCntHigh
      rw [high, BitVec.getLsbD_and, getLsbD_getByte]
      exact Bool.and_true _
    · unfold State.soundCntHigh
      rw [high, BitVec.getLsbD_and, getLsbD_getByte]
      exact Bool.and_true _
    · have plain (k : Nat) (hk : k < 2) : 0x84 + k < 0x400 ∧ ioRegAt (0x84 + k) = (.plain, 0x84 + k) := by
        interval_cases k <;> exact ⟨by decide, rfl⟩
      obtain ⟨-, held, -⟩ := writeBytes_plain gba v plain
      unfold State.soundMaster
      rw [show busWrite 0x04000084 .half v s = writeBytes (ioAddress 0x84) v 2 s from
        busWrite_eq_writeBytes (w := .half) (fun h => nomatch h) v, held 0 (by decide), getLsbD_getByte]
      rfl
  case advance =>
    intro on d leftA leftB
    have master : s.soundMaster = on := soundMaster_eq gba
    cases hon : on with
    | false =>
      have advance : apuAdvance s = s.setDev s.dev.noDrains := by
        unfold apuAdvance
        rw [master, hon]
        rfl
      have dev : d = s.dev.noDrains := congrArg State.dev advance
      rw [dev]
      exact ⟨advance, rfl, rfl, fun n => by simp [Devices.noDrains]⟩
    | true =>
      have advance : apuAdvance s = s.setDev (iterate (drainB Bus.gba) s.dev.fifoB.drains
          (iterate (drainA Bus.gba) s.dev.fifoA.drains s.dev)).noDrains := by
        unfold apuAdvance
        rw [master, hon, gba]
        rfl
      have dev : d = _ := congrArg State.dev advance
      obtain ⟨bytesA, bytesB, channels⟩ := drained (d := s.dev) rfl
      rw [dev]
      refine ⟨advance, congrArg (Fifo.mk · 0) bytesA, congrArg (Fifo.mk · 0) bytesB, fun n => (channels n).trans ?_⟩
      simp only [true_and]
      rfl

/-!
PROOFS. DMA transfers between RAM (spec/60_exceptions.md section 5, rules R543 to R545): by induction over the units, each
byte of which lands as it was read.
-/

theorem iterate_succ {α : Type} (f : α → α) (k : Nat) (a : α) : iterate f (k + 1) a = f (iterate f k a) := by
  induction k generalizing a with
  | zero => rfl
  | succ k ih => exact ih (f a)

-- Values by their bytes

/-- A value held in memory, byte by byte (R82). -/
theorem getByte_valueAt (s : State) (w : Width) (a : Word) {k : Nat} (hk : k < w.bytes) :
    getByte (valueAt s w a) k = byteAt s (a + BitVec.ofNat 32 k) := by
  have first : byteAt s (a + BitVec.ofNat 32 0) = byteAt s a := by rw [BitVec.add_zero]
  refine BitVec.eq_of_getLsbD_eq fun i hi => ?_
  rw [getLsbD_getByte]
  cases w with
  | byte =>
    obtain rfl : k = 0 := Nat.lt_one_iff.mp hk
    rw [first]
    simp only [valueAt, BitVec.getLsbD_setWidth]
    interval_cases i <;> simp
  | half =>
    simp only [Width.bytes] at hk
    simp only [valueAt, BitVec.getLsbD_setWidth, BitVec.getLsbD_append]
    interval_cases k
    · rw [first]
      interval_cases i <;> simp
    · rw [show a + BitVec.ofNat 32 1 = a + 1 from rfl]
      interval_cases i <;> simp
  | word =>
    simp only [Width.bytes] at hk
    simp only [valueAt, BitVec.getLsbD_append]
    interval_cases k
    · rw [first]
      interval_cases i <;> simp
    · rw [show a + BitVec.ofNat 32 1 = a + 1 from rfl]
      interval_cases i <;> simp
    · rw [show a + BitVec.ofNat 32 2 = a + 2 from rfl]
      interval_cases i <;> simp
    · rw [show a + BitVec.ofNat 32 3 = a + 3 from rfl]
      interval_cases i <;> simp

/-- Two places that hold the same bytes hold the same value. -/
theorem valueAt_congr {s t : State} {w : Width} {a b : Word}
    (bytes : ∀ k < w.bytes, byteAt s (a + BitVec.ofNat 32 k) = byteAt t (b + BitVec.ofNat 32 k)) :
    valueAt s w a = valueAt t w b := by
  have first : byteAt s a = byteAt t b := by simpa using bytes 0 (by cases w <;> decide)
  cases w with
  | byte => simp only [valueAt, first]
  | half =>
    have second : byteAt s (a + 1) = byteAt t (b + 1) := bytes 1 (by decide)
    simp only [valueAt, first, second]
  | word =>
    have second : byteAt s (a + 1) = byteAt t (b + 1) := bytes 1 (by decide)
    have third : byteAt s (a + 2) = byteAt t (b + 2) := bytes 2 (by decide)
    have fourth : byteAt s (a + 3) = byteAt t (b + 3) := bytes 3 (by decide)
    simp only [valueAt, first, second, third, fourth]

-- The units of a transfer

section
variable (w : Width) (src dst dSrc dDst : Word)

/-- The aligned source of unit `k` (R543). -/
def unitSrc (k : Nat) : Word := w.align (src + BitVec.ofNat 32 k * dSrc)

/-- The aligned destination of unit `k` (R543). -/
def unitDst (k : Nat) : Word := w.align (dst + BitVec.ofNat 32 k * dDst)

/-- The units lie in RAM, and no destination meets another unit's or a source. -/
structure UnitsApart (bus : Bus) (count : Nat) : Prop where
  ram : ∀ k < count, isRam (region bus (unitSrc w src dSrc k)) = true ∧ isRam (region bus (unitDst w dst dDst k)) = true
  apart : ∀ j < count, ∀ k < count, ∀ x < w.bytes, ∀ y < w.bytes,
    (j ≠ k → cell bus (unitDst w dst dDst j + BitVec.ofNat 32 x) ≠ cell bus (unitDst w dst dDst k + BitVec.ofNat 32 y)) ∧
    cell bus (unitDst w dst dDst j + BitVec.ofNat 32 x) ≠ cell bus (unitSrc w src dSrc k + BitVec.ofNat 32 y)

variable {w src dst dSrc dDst} {s : State} {count : Nat}

/-- What the first `k` units of a transfer leave (R543). -/
theorem iterate_transferUnit (gba : s.bus = Bus.gba) (whole : w ≠ .byte)
    (units : UnitsApart w src dst dSrc dDst s.bus count) {k : Nat} (hk : k ≤ count) :
    let t := iterate (transferUnit w dSrc dDst) k ⟨src, dst, s⟩
    t.src = src + BitVec.ofNat 32 k * dSrc ∧ t.dst = dst + BitVec.ofNat 32 k * dDst ∧
    t.machine = s.setMem t.machine.mem ∧
    (∀ j < k, ∀ x < w.bytes, byteAt t.machine (unitDst w dst dDst j + BitVec.ofNat 32 x) =
      byteAt s (unitSrc w src dSrc j + BitVec.ofNat 32 x)) ∧
    (∀ a : Word, (∀ j < k, ∀ x < w.bytes, cell s.bus a ≠ cell s.bus (unitDst w dst dDst j + BitVec.ofNat 32 x)) →
      byteAt t.machine a = byteAt s a) := by
  induction k with
  | zero =>
    refine ⟨?_, ?_, rfl, fun j hj => absurd hj j.not_lt_zero, fun a _ => rfl⟩
    · exact (by simp [iterate])
    · exact (by simp [iterate])
  | succ k ih =>
    obtain ⟨atSrc, atDst, frame, landed, kept⟩ := ih (by omega)
    rw [iterate_succ]
    generalize iterate (transferUnit w dSrc dDst) k ⟨src, dst, s⟩ = t at *
    obtain ⟨ramSrc, ramDst⟩ := units.ram k (by omega)
    have bus : t.machine.bus = s.bus := by rw [frame]; rfl
    have source : w.align t.src = unitSrc w src dSrc k := congrArg w.align atSrc
    have target : w.align t.dst = unitDst w dst dDst k := congrArg w.align atDst
    have read : busRead false (unitSrc w src dSrc k) w t.machine =
        (valueAt t.machine w (unitSrc w src dSrc k), t.machine) :=
      busRead_held (by rw [bus, gba]) (w.align_align _) (.inl (by rw [bus, ramSrc]))
    have step : transferUnit w dSrc dDst t = ⟨t.src + dSrc, t.dst + dDst,
        busWrite (unitDst w dst dDst k) w (valueAt t.machine w (unitSrc w src dSrc k)) t.machine⟩ := by
      unfold transferUnit
      rw [source, target, read]
    have aligned : w.align (unitDst w dst dDst k) = unitDst w dst dDst k := w.align_align _
    obtain ⟨stored, others, memory⟩ := busWrite_ram (s := t.machine) (by rw [bus, gba]) (by rw [bus, ramDst]) aligned
      (fun e => absurd e whole) (valueAt t.machine w (unitSrc w src dSrc k))
    rw [step]
    generalize busWrite (unitDst w dst dDst k) w (valueAt t.machine w (unitSrc w src dSrc k)) t.machine = m at *
    rw [bus] at others
    have next (d : Word) : BitVec.ofNat 32 k * d + d = BitVec.ofNat 32 (k + 1) * d := by
      rw [BitVec.ofNat_add, show BitVec.ofNat 32 1 = 1 from rfl]
      ring
    have unread {x : Nat} (hx : x < w.bytes) : byteAt t.machine (unitSrc w src dSrc k + BitVec.ofNat 32 x) =
        byteAt s (unitSrc w src dSrc k + BitVec.ofNat 32 x) :=
      kept _ fun j hj y hy => ((units.apart j (by omega) k (by omega) y hy x hx).2).symm
    refine ⟨?_, ?_, ?_, fun j hj x hx => ?_, fun a free => ?_⟩
    · show t.src + dSrc = _
      rw [atSrc, BitVec.add_assoc, next]
    · show t.dst + dDst = _
      rw [atDst, BitVec.add_assoc, next]
    · show m = s.setMem m.mem
      rw [memory, frame]
      rfl
    · show byteAt m _ = _
      rcases Nat.lt_succ_iff_lt_or_eq.mp hj with hj | rfl
      · rw [others _ fun y hy => (units.apart j (by omega) k (by omega) x hx y hy).1 (by omega), landed j hj x hx]
      · rw [stored x hx, getByte_valueAt _ _ _ hx, unread hx]
    · show byteAt m a = _
      rw [others a fun y hy => free k (by omega) y hy, kept a fun j hj => free j (by omega)]

end

-- A channel's transfer

section
variable (n : Fin 4) (s : State)

theorem Devices.setDma_same (d : Devices) (c : DmaChannel) : (d.setDma n c).dma[n] = c := by
  simp [Devices.setDma]

theorem Devices.setDma_other {m : Fin 4} (h : m ≠ n) (d : Devices) (c : DmaChannel) :
    (d.setDma n c).dma[m] = d.dma[m] := by
  have apart : n.val ≠ m.val := Fin.val_ne_of_ne h.symm
  simp [Devices.setDma, apart]

/-- The machine at the start of a transfer: the channel is no longer due (R543). -/
def dmaStart : State := s.setDev (s.dev.setDma n { s.dev.dma[n] with due := false })

/-- The end of a transfer whose units left all but memory (R543). -/
theorem dmaRun_eq {t : Transfer}
    (ran : iterate (transferUnit (s.dev.dma[n].width n) (s.dev.dma[n].srcStep n) (s.dev.dma[n].dstStep n))
      (s.dev.dma[n].units n) ⟨s.dev.dma[n].src, s.dev.dma[n].dst, dmaStart n s⟩ = t)
    (frame : t.machine = (dmaStart n s).setMem t.machine.mem) :
    dmaRun n s = (s.setMem t.machine.mem).setDev
      (let d := s.dev.setDma n (DmaChannel.finish { s.dev.dma[n] with due := false } n t.src t.dst)
       if s.dev.dma[n].ctl.getLsbD 14 then d.request (8 + n.val) else d) := by
  have channel : t.machine.dev.dma[n] = { s.dev.dma[n] with due := false } := by
    rw [frame]
    exact Devices.setDma_same n s.dev _
  have devices (c : DmaChannel) : t.machine.dev.setDma n c = s.dev.setDma n c := by
    rw [frame]
    simp [State.setMem, dmaStart, State.setDev, Devices.setDma]
  have machine (d : Devices) : t.machine.setDev d = (s.setMem t.machine.mem).setDev d := by
    rw [frame]
    rfl
  unfold dmaStart at ran
  unfold dmaRun
  dsimp only
  rw [ran, channel, devices, machine]

/-- The step a control field gives an address (R543). -/
theorem addressStep_eq (ctl : BitVec 2) (w : Width) :
    addressStep ctl w = if ctl = 1 then 0 - BitVec.ofNat 32 w.bytes else if ctl = 2 then 0 else BitVec.ofNat 32 w.bytes := by
  unfold addressStep
  simp

/-- The control bits a disarmed channel keeps. -/
theorem DmaChannel.finish_disarms (c : DmaChannel) (src dst : Word)
    (h : ¬(c.ctl.getLsbD 9 = true ∧ c.ctl.extractLsb' 12 2 ≠ 0)) :
    c.finish n src dst = { c with src := src, dst := dst, ctl := c.ctl &&& 0x7FFF, due := false } := by
  have test : ¬((c.ctl.getLsbD 9 && c.timing != 0) = true) := by
    simpa [DmaChannel.timing] using h
  unfold DmaChannel.finish
  rw [if_neg test]

theorem DmaChannel.finish_repeats (c : DmaChannel) (src dst : Word)
    (h : c.ctl.getLsbD 9 = true ∧ c.ctl.extractLsb' 12 2 ≠ 0) :
    c.finish n src dst =
      { c with src := src, dst := if c.ctl.extractLsb' 5 2 = 3 then c.latchDst n else dst, cnt := c.latchCnt n } := by
  have test : (c.ctl.getLsbD 9 && c.timing != 0) = true := by
    simpa [DmaChannel.timing] using h
  unfold DmaChannel.finish
  rw [if_pos test]
  simp [DmaChannel.dstCtl]

theorem DmaChannel.finish_src (c : DmaChannel) (src dst : Word) : (c.finish n src dst).src = src := by
  unfold DmaChannel.finish
  split <;> rfl

/-- The devices after a transfer: the channel ended and its IRQ requested (R543). -/
def dmaEnded (d : Devices) (c : DmaChannel) (irq : Bool) : Devices :=
  if irq then (d.setDma n c).request (8 + n.val) else d.setDma n c

theorem dmaEnded_dma (d : Devices) (c : DmaChannel) (irq : Bool) : (dmaEnded n d c irq).dma = (d.setDma n c).dma := by
  cases irq <;> rfl

theorem dmaEnded_iflags (d : Devices) (c : DmaChannel) (irq : Bool) {j : Nat} (hj : j < 14) :
    (dmaEnded n d c irq).iflags.getLsbD j = true ↔ d.iflags.getLsbD j = true ∨ (j = 8 + n.val ∧ irq = true) := by
  cases irq with
  | true => exact (Devices.request_iflags _ _ hj).trans (by simp [Devices.setDma])
  | false => simp [dmaEnded, Devices.setDma]

end

theorem find?_first {p : Fin 4 → Bool} {n : Fin 4} (holds : p n = true) (first : ∀ m < n, p m = false) :
    ([0, 1, 2, 3] : List (Fin 4)).find? p = some n := by
  match n, holds, first with
  | 0, holds, _ => simp [holds]
  | 1, holds, first => simp [holds, first 0 (by decide)]
  | 2, holds, first => simp [holds, first 0 (by decide), first 1 (by decide)]
  | 3, holds, first => simp [holds, first 0 (by decide), first 1 (by decide), first 2 (by decide)]

/-- The due channel with the lowest number (R545). -/
theorem nextDue_eq {n : Fin 4} {s : State} (due : s.dev.dma[n].due = true)
    (first : ∀ m : Fin 4, m < n → s.dev.dma[m].due = false) : nextDue s = some n :=
  find?_first (p := fun m => s.dev.dma[m].due) due first

/-- Settles O56, by the units of the transfer and the end of the channel. -/
theorem dmaTransfers : Obligations.DmaTransfers := by
  unfold Obligations.DmaTransfers
  refine ⟨?_, ?_, fun n s due first k => ?_⟩
  · intro n s c w size move src dst plain gba ram apart t
    have fifo : c.fifoMode n = false := by
      refine Bool.eq_false_iff.mpr fun h => plain ?_
      simpa [DmaChannel.fifoMode, DmaChannel.timing] using h
    have width : w = if c.ctl.getLsbD 10 then .word else .half := by
      show c.width n = _
      simp [DmaChannel.width, fifo]
    have whole : w ≠ .byte := by
      rw [width]
      split <;> exact fun h => Width.noConfusion h
    have steps : c.srcStep n = move (c.ctl.extractLsb' 7 2) ∧ c.dstStep n = move (c.ctl.extractLsb' 5 2) := by
      refine ⟨addressStep_eq _ _, ?_⟩
      unfold DmaChannel.dstStep
      rw [fifo]
      exact addressStep_eq _ _
    have count : c.units n = c.cnt := by
      unfold DmaChannel.units
      rw [fifo]
      rfl
    have units : UnitsApart w c.src c.dst (move (c.ctl.extractLsb' 7 2)) (move (c.ctl.extractLsb' 5 2))
        (dmaStart n s).bus c.cnt := ⟨ram, apart⟩
    obtain ⟨atSrc, atDst, frame, landed, kept⟩ := iterate_transferUnit (s := dmaStart n s) gba whole units (Nat.le_refl _)
    generalize ran : iterate (transferUnit w (move (c.ctl.extractLsb' 7 2)) (move (c.ctl.extractLsb' 5 2))) c.cnt
      ⟨c.src, c.dst, dmaStart n s⟩ = e at *
    have ended : t = (s.setMem e.machine.mem).setDev
        (dmaEnded n s.dev (DmaChannel.finish { c with due := false } n e.src e.dst) (c.ctl.getLsbD 14)) := by
      refine dmaRun_eq n s ?_ frame
      rw [← ran, ← steps.1, ← steps.2, ← count]
    have channel : t.dev.dma[n] = DmaChannel.finish { c with due := false } n e.src e.dst := by
      rw [ended]
      show (dmaEnded n _ _ _).dma[n] = _
      rw [dmaEnded_dma, Devices.setDma_same]
    have bytes (a : Word) : byteAt t a = byteAt e.machine a := by
      rw [ended, frame]
      rfl
    refine ⟨width, fun k hk => valueAt_congr fun x hx => ?_, fun a free => ?_, fun j hj => ?_, ?_, fun again => ?_,
      fun once => ?_, fun m other => ?_, ?_, ?_, ?_⟩
    · rw [bytes]
      exact landed k hk x hx
    · rw [bytes]
      exact kept a free
    · rw [ended]
      exact dmaEnded_iflags n _ _ _ hj
    · rw [channel, DmaChannel.finish_src, atSrc]
    · rw [channel, DmaChannel.finish_repeats n { c with due := false } _ _ again, atDst]
      exact ⟨rfl, rfl, rfl, rfl⟩
    · rw [channel, DmaChannel.finish_disarms n { c with due := false } _ _ once]
      exact ⟨rfl, rfl⟩
    · rw [ended]
      show (dmaEnded n _ _ _).dma[m] = _
      rw [dmaEnded_dma, Devices.setDma_other n other]
    · rw [ended]; rfl
    · rw [ended]; rfl
    · rw [ended]; rfl
  · intro n c sound special
    have fifo : c.fifoMode n = true := by
      simpa [DmaChannel.fifoMode, special] using sound
    simp [DmaChannel.width, DmaChannel.units, DmaChannel.dstStep, fifo]
  · rw [dmaRunDue, nextDue_eq due first]

end Sys2Proof.Machine

/-!
PROOFS. The interrupt poll and the returns that undo an entry (spec/60_exceptions.md sections 1, 2, 3 and 8, rules R509,
R511, R520 to R522, R565, R570), and the addresses of block transfers (rule R320).
-/

namespace Sys2Proof.Machine

-- The poll

section
variable (s : State)

/-- The devices after the keypad's part of a poll and the end of a halt (R565, R570). -/
def polledDevices : Devices := (wake (keypadPoll s)).dev

theorem keypadPoll_eq :
    keypadPoll s = s.setDev (if s.dev.keycnt.irq && keypadCondition s then s.dev.request 12 else s.dev) := by
  unfold keypadPoll
  split <;> rfl

theorem wake_eq : wake s = s.setDev { s.dev with halted := s.dev.halted && !s.dev.pending } := by
  unfold wake
  split
  case isTrue h => simp [Bool.and_elim_left h, Bool.and_elim_right h]
  case isFalse h =>
    have same : (s.dev.halted && !s.dev.pending) = s.dev.halted := by
      revert h
      cases s.dev.halted <;> cases s.dev.pending <;> simp
    rw [same]
    rfl

theorem wake_keypadPoll : wake (keypadPoll s) = s.setDev (polledDevices s) := by
  unfold polledDevices
  rw [wake_eq, keypadPoll_eq]
  rfl

/-- The poll: the devices, and at most one entry (R522). -/
theorem poll_eq :
    poll s = if s.fiqLine && !s.cpsr.f then takeException .fiq (s.setDev (polledDevices s))
      else if (polledDevices s).irqPending && !s.cpsr.i then takeException .irq (s.setDev (polledDevices s))
      else s.setDev (polledDevices s) := by
  unfold poll
  rw [wake_keypadPoll]
  rfl

theorem poll_dev : (poll s).dev = polledDevices s := by
  rw [poll_eq]
  split
  · exact takeExceptionWithLink_dev _ _ _
  split
  · exact takeExceptionWithLink_dev _ _ _
  · rfl

/-- The keypad condition, button by button (R565). -/
theorem keypadCondition_iff :
    keypadCondition s = true ↔
      if s.dev.keycnt.all then ∀ j < 10, s.dev.keycnt.select.getLsbD j = true → s.buttons.getLsbD j = true
      else ∃ j < 10, s.dev.keycnt.select.getLsbD j = true ∧ s.buttons.getLsbD j = true := by
  unfold keypadCondition
  dsimp only
  cases h : s.dev.keycnt.all
  case true =>
    have all : s.buttons &&& s.dev.keycnt.select = s.dev.keycnt.select ↔
        ∀ j < 10, s.dev.keycnt.select.getLsbD j = true → s.buttons.getLsbD j = true := by
      refine ⟨fun e j _ hj => ?_, fun h => BitVec.eq_of_getLsbD_eq fun j hj => ?_⟩
      · rw [← e, BitVec.getLsbD_and] at hj
        exact Bool.and_elim_left hj
      · rw [BitVec.getLsbD_and]
        cases hs : s.dev.keycnt.select.getLsbD j
        · exact Bool.and_false _
        · rw [h j hj hs]; rfl
    rw [if_pos rfl, if_pos rfl, beq_iff_eq, all]
  case false =>
    have any : s.buttons &&& s.dev.keycnt.select ≠ 0 ↔
        ∃ j < 10, s.dev.keycnt.select.getLsbD j = true ∧ s.buttons.getLsbD j = true := by
      refine ⟨fun h => ?_, fun ⟨j, _, hs, hb⟩ e => ?_⟩
      · by_contra none
        refine h (BitVec.eq_of_getLsbD_eq fun j hj => ?_)
        rw [BitVec.getLsbD_and, show BitVec.getLsbD (0 : BitVec 10) j = false from BitVec.getLsbD_zero]
        refine Bool.eq_false_iff.mpr fun both => none ⟨j, hj, Bool.and_elim_right both, Bool.and_elim_left both⟩
      · have bit := congrArg (·.getLsbD j) e
        simp [hs, hb] at bit
    rw [if_neg Bool.false_ne_true, if_neg Bool.false_ne_true, bne_iff_ne, any]

theorem Devices.pending_iff (d : Devices) : d.pending = true ↔ d.ie &&& d.iflags ≠ 0 := by simp [Devices.pending]

end

/-- Settles O53: the poll is its devices and at most one entry. -/
theorem interruptPoll : Obligations.InterruptPoll := by
  unfold Obligations.InterruptPoll
  intro s k hit d
  have devices : d = polledDevices s := poll_dev s
  clear_value d
  subst devices
  have fromKeypad : polledDevices s = (wake (keypadPoll s)).dev := rfl
  rw [wake_eq, keypadPoll_eq] at fromKeypad
  have pressed : (s.dev.keycnt.irq && keypadCondition s) = true ↔ hit := by
    rw [Bool.and_eq_true, keypadCondition_iff]
  have taken : ((polledDevices s).irqPending && !s.cpsr.i) = true ↔
      (polledDevices s).ime = true ∧ (polledDevices s).ie &&& (polledDevices s).iflags ≠ 0 ∧ s.cpsr.i = false := by
    rw [Devices.irqPending, Bool.and_eq_true, Bool.and_eq_true, Devices.pending_iff, Bool.not_eq_true', and_assoc]
  refine ⟨fun j hj => ?_, ?_, ?_, ?_, fun masked => ?_, fun line clear => ?_⟩
  · rw [fromKeypad]
    show (if _ then _ else _ : Devices).iflags.getLsbD j = true ↔ _
    split
    case isTrue h => simp [Devices.request_iflags _ _ hj, pressed.mp h]
    case isFalse h => simp [mt pressed.mpr h]
  · rw [fromKeypad]
    show (if _ then _ else _ : Devices).ie = _
    split <;> rfl
  · rw [fromKeypad]
    show (if _ then _ else _ : Devices).ime = _
    split <;> rfl
  · rw [fromKeypad]
    show ((if _ then _ else _ : Devices).halted && !(if _ then _ else _ : Devices).pending) = true ↔ _
    split <;> simp [Devices.pending, Devices.request]
  · have noFiq : ¬(s.fiqLine && !s.cpsr.f) = true := by
      rcases masked with h | h <;> simp [h]
    rw [poll_eq, if_neg noFiq]
    exact ⟨fun irq => if_pos (taken.mpr irq), fun none => if_neg (mt taken.mp none)⟩
  · rw [poll_eq, if_pos (by simp [line, clear])]

-- Returns

theorem Psr.restored_saved (p : Cpsr) : p.saved.restored = some p := by
  cases p with
  | mk n z c v i f t mode => cases mode <;> rfl

/-- An exception return to `v` from a mode just entered restores the CPSR saved (R511). -/
theorem dpFinish_undoEntry {op : DpOp} {e : Exc} {link v : Word} {n : Word} {b : Shifted} {s : State} (hw : op.writesRd = true)
    (value : (op.apply n b (takeExceptionWithLink e link s).cpsr).value = v) (aligned : alignFor s.cpsr.t v = v) :
    dpFinish op true 15 n b (takeExceptionWithLink e link s).begun =
      .next { takeExceptionWithLink e link s with cpsr := s.cpsr, pc := v, lastUsrBank := false } := by
  have mode : (takeExceptionWithLink e link s).cpsr.mode = e.mode := by rw [takeExceptionWithLink_cpsr]
  have saved : (takeExceptionWithLink e link s).spsrOf (takeExceptionWithLink e link s).cpsr.mode = some s.cpsr.saved := by
    rw [mode, takeExceptionWithLink_spsrOf, if_pos rfl]
  rw [dpFinish_return hw saved (Psr.restored_saved _) (.inr (by rw [value, aligned])), value, aligned]
  rfl

/-- The link register after an entry (R509). -/
theorem takeExceptionWithLink_armX_link (e : Exc) (link : Word) (s : State) :
    (takeExceptionWithLink e link s).armX 14 = link := by
  show (takeExceptionWithLink e link s).regOf (takeExceptionWithLink e link s).cpsr.mode 14 = link
  rw [takeExceptionWithLink_regOf _ _ _ (by decide), takeExceptionWithLink_cpsr, if_pos ⟨rfl, rfl⟩]

/-- Settles O52: each return is an exception return whose value is the pc to go back to. -/
theorem returnUndoesEntry : Obligations.ReturnUndoesEntry := by
  unfold Obligations.ReturnUndoesEntry
  intro s free
  have runs {i : Instr} {e : Exc} {link : Word} (wf : i.WellFormed) (always : condOf i = some .al) :
      Runs i (takeExceptionWithLink e link s) :=
    ⟨fun c hc => Option.some.inj (always.symm.trans hc) ▸ rfl,
      by simpa [State.strict] using free.imp_right (And.intro wf)⟩
  refine ⟨fun aligned => ?_, fun e link _ aligned => ?_⟩
  · intro t
    have value : (DpOp.apply .sub (t.armX 14) (immShifted 0 4 t.cpsr.c) t.cpsr).value = s.pc := by
      have link : t.armX 14 = s.pc + 4 := takeExceptionWithLink_armX_link _ _ _
      rw [link]
      show s.pc + 4 + ~~~(4 : Word) + 1 = s.pc
      bv_omega
    exact (exec_dpImm (op := .sub) (sbz := 0) (runs (by decide) rfl)).trans (dpFinish_undoEntry rfl value aligned)
  · intro t
    have value : (DpOp.apply .mov (t.armX 0) (shiftByImm .lsl (t.armX 14) 0 t.cpsr.c) t.cpsr).value = link :=
      takeExceptionWithLink_armX_link _ _ _
    exact (exec_dpRsi (op := .mov) (rn := 0) (runs (by decide) rfl)).trans (dpFinish_undoEntry rfl value aligned)

-- Block addresses

/-- The registers of a list ascend (R145, R320). -/
theorem regList_pairwise {n : Nat} (hn : n ≤ 16) (list : BitVec n) : (regList list).Pairwise fun r q => r.toNat < q.toNat := by
  unfold regList
  rw [List.pairwise_map]
  refine List.Pairwise.imp_of_mem (fun {i j} hi hj less => ?_) (List.pairwise_lt_range.filter _)
  have small {k : Nat} (hk : k ∈ (List.range n).filter fun i => list.getLsbD i) : k < 2 ^ 4 :=
    Nat.lt_of_lt_of_le (List.mem_range.mp (List.mem_of_mem_filter hk)) hn
  rwa [BitVec.toNat_ofNat, BitVec.toNat_ofNat, Nat.mod_eq_of_lt (small hi), Nat.mod_eq_of_lt (small hj)]

/-- A register list is empty where no bit is set (R320). -/
theorem regList_isEmpty {n : Nat} (hn : n ≤ 16) (list : BitVec n) : (regList list).isEmpty = true ↔ list = 0 := by
  rw [List.isEmpty_iff]
  refine ⟨fun none => BitVec.eq_of_getLsbD_eq fun j hj => ?_, fun h => List.eq_nil_iff_forall_not_mem.mpr fun r hr => ?_⟩
  · refine (BitVec.getLsbD_zero ▸ Bool.eq_false_iff.mpr fun h => ?_)
    have listed : BitVec.ofNat 4 j ∈ regList list := (mem_regList hn).mpr (by
      rw [BitVec.toNat_ofNat, Nat.mod_eq_of_lt (by omega)]; exact h)
    exact List.not_mem_nil (none ▸ listed)
  · rw [mem_regList hn, h] at hr
    exact Bool.noConfusion ((BitVec.getLsbD_zero).symm.trans hr)

/-- Settles O26, mode by mode. -/
theorem blockAddresses : Obligations.BlockAddresses := by
  unfold Obligations.BlockAddresses
  intro base list regs n
  have count : BitVec.ofNat 32 (4 * if regs.isEmpty then 16 else regs.length) = n := by
    by_cases h : list = 0
    · simp only [n, if_pos h, if_pos ((regList_isEmpty (by decide) list).mpr h), regs]
      rfl
    · simp only [n, if_neg h, if_neg (mt (regList_isEmpty (by decide) list).mp h), regs]
  refine ⟨fun r => mem_regList (by decide), regList_pairwise (by decide) list, fun p u => ?_, ?_, ?_, ?_, ?_⟩
  · exact if_congr (regList_isEmpty (by decide) list) rfl rfl
  all_goals
    simp only [blockOf, blockStart, blockWriteBack, if_true, if_false, count, regs, Bool.false_eq_true]

/-!
PROOFS. ARM single loads (spec/42_arm_loadstore.md sections 1 and 2, rules R300, R301, R303, R305, R307, R310, R311, R313,
R314): behind its gate each row is the corners of its addressing, one read, and one end.
-/

-- The corners of an address

section
variable {a : Address} {rn : Reg} {rm : Option Reg} {e : Outcome}

theorem addressStops_run (hn : a.writeBack = true → rn ≠ 15) (hm : rm ≠ some 15) : addressStops a rn rm e = e := by
  have noBase : (a.writeBack && rn == 15) = false := by
    cases h : a.writeBack
    · rfl
    · simpa using hn h
  unfold addressStops
  rw [stopIf_neg noBase, stopIf_neg (by simpa using hm)]

theorem addressStops_imm (hn : a.writeBack = true → rn ≠ 15) : addressStops a rn none e = e :=
  addressStops_run hn (by simp)

theorem addressStops_reg {q : Reg} (hn : a.writeBack = true → rn ≠ 15) (hq : q ≠ 15) : addressStops a rn (some q) e = e :=
  addressStops_run hn fun h => hq (Option.some.inj h)

theorem addressStops_base (h : a.writeBack = true) : addressStops a 15 rm e = .fault (.unpredictable .lsWbPc) :=
  stopIf_pos (by simp [h]) _ _

theorem addressStops_offset (hn : a.writeBack = true → rn ≠ 15) :
    addressStops a rn (some 15) e = .fault (.unpredictable .lsRmPc) := by
  have noBase : (a.writeBack && rn == 15) = false := by
    cases h : a.writeBack
    · rfl
    · simpa using hn h
  unfold addressStops
  rw [stopIf_neg noBase, stopIf_pos (by simp)]

theorem halfStops_run {p w : Bool} (indexed : p = true ∨ w = false) :
    halfStops p w a rn rm e = addressStops a rn rm e := stopIf_neg (by rcases indexed with h | h <;> simp [h]) _ _

theorem halfStops_post : halfStops false true a rn rm e = .fault (.unpredictable .ls3PostW) := stopIf_pos rfl _ _

end

-- The rows by their addressing

section
variable {c : Cond} {p u w : Bool} {rn rd rm : Reg} {s : State}

/-- LDR, or LDRT where P = 0 and W = 1 (R301, R305). -/
def ldrAccess (p w : Bool) : Address → Reg → Reg → State → Outcome := if !p && w then loadWordT else loadWord

section
variable {access : Address → Reg → Reg → State → Outcome} {i : Instr}

/-- A word or byte transfer with an immediate offset that runs (R300). -/
theorem singleImm_run {imm12 : BitVec 12} (h : Runs i s) (hc : condOf i = some c) (held : shouldBeHeld i = true)
    (row : exec i s = singleImm access c p u w rn rd imm12 s) :
    exec i s = addressStops (addressOf (s.armX rn) (offset12 imm12) p u w) rn none
      (access (addressOf (s.armX rn) (offset12 imm12) p u w) rn rd s.begun) := by
  have gate := h.armGate_eq hc [rn, rd] fun s =>
    addressStops (addressOf (s.armX rn) (offset12 imm12) p u w) rn none
      (access (addressOf (s.armX rn) (offset12 imm12) p u w) rn rd s)
  rw [held] at gate
  exact row.trans gate

/-- A word or byte transfer with a scaled register offset that runs (R300). -/
theorem singleReg_run {amt : BitVec 5} {sh : Shift} (h : Runs i s) (hc : condOf i = some c) (held : shouldBeHeld i = true)
    (row : exec i s = singleReg access c p u w rn rd amt sh rm s) :
    exec i s = addressStops (addressOf (s.armX rn) (offsetReg s rm sh amt) p u w) rn (some rm)
      (access (addressOf (s.armX rn) (offsetReg s rm sh amt) p u w) rn rd s.begun) := by
  have gate := h.armGate_eq hc [rn, rd, rm] fun s =>
    addressStops (addressOf (s.armX rn) (offsetReg s rm sh amt) p u w) rn (some rm)
      (access (addressOf (s.armX rn) (offsetReg s rm sh amt) p u w) rn rd s)
  rw [held] at gate
  exact row.trans gate

end

section
variable {imm12 : BitVec 12}

theorem exec_ldrImm (h : Runs (ldrImmInstr c p u w rn rd imm12) s) :
    exec (ldrImmInstr c p u w rn rd imm12) s =
      addressStops (addressOf (s.armX rn) (offset12 imm12) p u w) rn none
        (ldrAccess p w (addressOf (s.armX rn) (offset12 imm12) p u w) rn rd s.begun) := by
  cases p <;> cases w <;> exact singleImm_run h rfl rfl rfl

theorem exec_ldrbImm (h : Runs (ldrbImmInstr c p u w rn rd imm12) s) :
    exec (ldrbImmInstr c p u w rn rd imm12) s =
      addressStops (addressOf (s.armX rn) (offset12 imm12) p u w) rn none
        (loadByte (addressOf (s.armX rn) (offset12 imm12) p u w) rn rd s.begun) := by
  cases p <;> cases w <;> exact singleImm_run h rfl rfl rfl

theorem exec_strImm (h : Runs (strImmInstr c p u w rn rd imm12) s) :
    exec (strImmInstr c p u w rn rd imm12) s =
      addressStops (addressOf (s.armX rn) (offset12 imm12) p u w) rn none
        (storeWord (addressOf (s.armX rn) (offset12 imm12) p u w) rn rd s.begun) := by
  cases p <;> cases w <;> exact singleImm_run h rfl rfl rfl

theorem exec_strbImm (h : Runs (strbImmInstr c p u w rn rd imm12) s) :
    exec (strbImmInstr c p u w rn rd imm12) s =
      addressStops (addressOf (s.armX rn) (offset12 imm12) p u w) rn none
        (storeByte (addressOf (s.armX rn) (offset12 imm12) p u w) rn rd s.begun) := by
  cases p <;> cases w <;> exact singleImm_run h rfl rfl rfl

end

section
variable {amt : BitVec 5} {sh : Shift}

theorem exec_ldrReg (h : Runs (ldrRegInstr c p u w rn rd amt sh rm) s) :
    exec (ldrRegInstr c p u w rn rd amt sh rm) s =
      addressStops (addressOf (s.armX rn) (offsetReg s rm sh amt) p u w) rn (some rm)
        (ldrAccess p w (addressOf (s.armX rn) (offsetReg s rm sh amt) p u w) rn rd s.begun) := by
  cases p <;> cases w <;> exact singleReg_run h rfl rfl rfl

theorem exec_ldrbReg (h : Runs (ldrbRegInstr c p u w rn rd amt sh rm) s) :
    exec (ldrbRegInstr c p u w rn rd amt sh rm) s =
      addressStops (addressOf (s.armX rn) (offsetReg s rm sh amt) p u w) rn (some rm)
        (loadByte (addressOf (s.armX rn) (offsetReg s rm sh amt) p u w) rn rd s.begun) := by
  cases p <;> cases w <;> exact singleReg_run h rfl rfl rfl

theorem exec_strReg (h : Runs (strRegInstr c p u w rn rd amt sh rm) s) :
    exec (strRegInstr c p u w rn rd amt sh rm) s =
      addressStops (addressOf (s.armX rn) (offsetReg s rm sh amt) p u w) rn (some rm)
        (storeWord (addressOf (s.armX rn) (offsetReg s rm sh amt) p u w) rn rd s.begun) := by
  cases p <;> cases w <;> exact singleReg_run h rfl rfl rfl

theorem exec_strbReg (h : Runs (strbRegInstr c p u w rn rd amt sh rm) s) :
    exec (strbRegInstr c p u w rn rd amt sh rm) s =
      addressStops (addressOf (s.armX rn) (offsetReg s rm sh amt) p u w) rn (some rm)
        (storeByte (addressOf (s.armX rn) (offsetReg s rm sh amt) p u w) rn rd s.begun) := by
  cases p <;> cases w <;> exact singleReg_run h rfl rfl rfl

end

section
variable {immH immL : BitVec 4} {access : Address → Reg → Reg → State → Outcome} {i : Instr}

/-- A halfword or signed transfer with an immediate offset that runs (R310). -/
theorem halfImm_run (h : Runs i s) (hc : condOf i = some c) (held : shouldBeHeld i = true) :
    halfImm access c p u w rn rd immH immL s =
      halfStops p w (addressOf (s.armX rn) (offsetHalf immH immL) p u w) rn none
        (access (addressOf (s.armX rn) (offsetHalf immH immL) p u w) rn rd s.begun) := by
  have gate := h.armGate_eq hc [rn, rd] fun s =>
    halfStops p w (addressOf (s.armX rn) (offsetHalf immH immL) p u w) rn none
      (access (addressOf (s.armX rn) (offsetHalf immH immL) p u w) rn rd s)
  rw [held] at gate
  exact gate

/-- A halfword or signed transfer with a register offset that runs (R310). -/
theorem halfReg_run {sbz : BitVec 4} (h : Runs i s) (hc : condOf i = some c) (held : shouldBeHeld i = shouldBeZero sbz) :
    halfReg access c p u w rn rd sbz rm s =
      halfStops p w (addressOf (s.armX rn) (s.armX rm) p u w) rn (some rm)
        (access (addressOf (s.armX rn) (s.armX rm) p u w) rn rd s.begun) := by
  have gate := h.armGate_eq hc [rn, rd, rm] fun s =>
    halfStops p w (addressOf (s.armX rn) (s.armX rm) p u w) rn (some rm)
      (access (addressOf (s.armX rn) (s.armX rm) p u w) rn rd s)
  rw [held] at gate
  exact gate

end

end

-- The end of a load

section
variable {a : Address} {rn rd : Reg} {s : State}

theorem writeBack_eq (hn : a.writeBack = true → rn ≠ 15) (u : State) :
    writeBack a rn u = { u with gpr := if a.writeBack then regsWith u rn a.offsetAddr else u.gpr } := by
  unfold writeBack
  split
  case isTrue h => rw [State.setX_reg (hn h)]; rfl
  case isFalse => rfl

/-- The case of a load whose write-back register is Rd, as a proposition. -/
theorem backToRd_eq_false (free : s.strict = false ∨ ¬(a.writeBack = true ∧ rn = rd)) :
    s.strict = false ∨ (a.writeBack && rn == rd) = false := free.imp_right fun apart => by simpa using apart

/-- The end of a load after a read that changes at most the count of free values: the base, Rd and the pc (R300). -/
theorem loadFinish_eq (hn : a.writeBack = true → rn ≠ 15) (hd : rd ≠ 15)
    (free : s.strict = false ∨ ¬(a.writeBack = true ∧ rn = rd)) {l : Word × State}
    (read : ∃ d, l.2 = { s.begun with draws := d }) :
    loadFinish a rn rd l.1 l.2 = .next { l.2 with gpr := regsLoaded s a rn rd l.1, pc := s.pc + 4 } := by
  obtain ⟨d, read⟩ := read
  have strictness : l.2.strict = s.strict := by rw [read]; rfl
  unfold loadFinish
  rw [(unpredIf_cases l.2 _ _ _).1 (strictness.symm ▸ backToRd_eq_false free), writeBack_eq hn, State.setX_reg hd, read]
  rfl

/-- A strict machine stops a write-back to Rd (R300). -/
theorem loadFinish_stop (strict : s.strict = true) (wb : a.writeBack = true) {l : Word × State}
    (read : ∃ d, l.2 = { s.begun with draws := d }) :
    loadFinish a rd rd l.1 l.2 = .fault (.unpredictable .ldrWbRd) := by
  obtain ⟨d, read⟩ := read
  exact unpredIf_pos (by rw [read]; exact strict) (by simp [wb]) _ _

theorem ldrAccess_finish (p w : Bool) (hd : rd ≠ 15) (u : State) :
    ldrAccess p w a rn rd u = loadFinish a rn rd (loadRotated a.addr u).1 (loadRotated a.addr u).2 := by
  have word : loadWord a rn rd u = loadFinish a rn rd (loadRotated a.addr u).1 (loadRotated a.addr u).2 := if_neg hd
  unfold ldrAccess
  split
  · exact (stopIf_neg (by simpa using hd) _ _).trans word
  · exact word

/-- A load of R15 is a branch that stays in ARM state (R301). -/
theorem ldrAccess_jump {p w : Bool} (word : p = true ∨ w = false) (hn : a.writeBack = true → rn ≠ 15) :
    ldrAccess p w a rn 15 s.begun = .next { (loadRotated a.addr s.begun).2 with
      gpr := regsStored s a rn, pc := align4 (loadRotated a.addr s.begun).1 } := by
  have plain : ldrAccess p w = loadWord := if_neg (by rcases word with h | h <;> simp [h])
  have jump : loadWord a rn 15 s.begun =
      .next ((writeBack a rn (loadRotated a.addr s.begun).2).setPc (align4 (loadRotated a.addr s.begun).1)) := by
    unfold loadWord
    exact if_pos rfl
  obtain ⟨d, read⟩ := loadRotated_state a.addr s.begun
  rw [plain, jump, writeBack_eq hn, read]
  rfl

theorem loadByte_finish (hd : rd ≠ 15) (u : State) :
    loadByte a rn rd u = loadFinish a rn rd (cpuRead a.addr .byte u).1 (cpuRead a.addr .byte u).2 :=
  stopIf_neg (by simpa using hd) _ _

theorem loadSignedByte_finish (hd : rd ≠ 15) (u : State) :
    loadSignedByte a rn rd u = loadFinish a rn rd (loadByteSigned a.addr u).1 (loadByteSigned a.addr u).2 :=
  stopIf_neg (by simpa using hd) _ _

theorem loadHalf_finish (hd : rd ≠ 15) (u : State) :
    loadHalf a rn rd u = unpredIf u (a.addr.getLsbD 0) .ldrhUnaligned
      (loadFinish a rn rd (loadHalfRotated a.addr u).1 (loadHalfRotated a.addr u).2) :=
  stopIf_neg (by simpa using hd) _ _

theorem loadSignedHalf_finish (hd : rd ≠ 15) (u : State) :
    loadSignedHalf a rn rd u = unpredIf u (a.addr.getLsbD 0) .ldrshUnaligned
      (loadFinish a rn rd (loadHalfSigned a.addr u).1 (loadHalfSigned a.addr u).2) :=
  stopIf_neg (by simpa using hd) _ _

end

-- Loaded values

/-- The rotated load, bit by bit (R301). -/
theorem getLsbD_loadRotated (a : Word) (s : State) {k : Nat} (hk : k < 32) :
    (loadRotated a s).1.getLsbD k = (cpuRead (align4 a) .word s).1.getLsbD ((k + 8 * (a.toNat % 4)) % 32) := by
  have offset : (a.extractLsb' 0 2).toNat = a.toNat % 4 := by simp
  rw [← offset]
  exact getLsbD_rotateRight_word _ _ hk

/-- A word of RAM, rotated by the byte offset of its address, byte by byte (R301). -/
theorem loadRotated_ram {a : Word} {s : State} (gba : s.bus = Bus.gba) (ram : isRam (region s.bus a) = true) :
    (loadRotated a s).2 = s ∧
    ∀ j < 4, (loadRotated a s).1.extractLsb' (8 * j) 8 = byteAt s (align4 a + BitVec.ofNat 32 ((a.toNat + j) % 4)) := by
  have read : cpuRead (align4 a) .word s = (valueAt s .word (align4 a), s) :=
    cpuRead_ram gba (align4_align4 a) (by rw [gba] at ram ⊢; exact (congrArg isRam (region_gba_align .word a)).trans ram)
  refine ⟨congrArg Prod.snd read, fun j hj => BitVec.eq_of_getLsbD_eq fun i hi => ?_⟩
  have byte := getByte_valueAt s .word (align4 a) (k := (a.toNat + j) % 4) (Nat.mod_lt _ (by decide))
  rw [← byte, getLsbD_getByte, BitVec.getLsbD_extractLsb',
    getLsbD_loadRotated a s (by omega), read]
  have place : (8 * j + i + 8 * (a.toNat % 4)) % 32 = 8 * ((a.toNat + j) % 4) + i := by omega
  rw [place]

theorem extractLsb'_zeroExtend {n : Nat} (hn : n ≤ 32) (v : BitVec n) : (v.zeroExtend 32).extractLsb' 0 n = v := by
  refine BitVec.eq_of_getLsbD_eq fun i hi => ?_
  rw [BitVec.getLsbD_extractLsb', BitVec.getLsbD_setWidth, Nat.zero_add, decide_eq_true hi,
    decide_eq_true (Nat.lt_of_lt_of_le hi hn), Bool.true_and, Bool.true_and]

theorem getLsbD_zero_eq (a : Word) : a.getLsbD 0 = decide (a.toNat % 2 = 1) := by
  rw [BitVec.getLsbD, Nat.testBit_zero]

/-- The rotated halfword, bit by bit (R311). -/
theorem getLsbD_loadHalfRotated (a : Word) (s : State) {k : Nat} (hk : k < 32) :
    (loadHalfRotated a s).1.getLsbD k = (cpuRead (align2 a) .half s).1.getLsbD ((k + 8 * (a.toNat % 2)) % 32) := by
  have value : (loadHalfRotated a s).1 =
      if a.getLsbD 0 then (cpuRead (align2 a) .half s).1.rotateRight 8 else (cpuRead (align2 a) .half s).1 := rfl
  rw [value, getLsbD_zero_eq]
  generalize (cpuRead (align2 a) .half s).1 = v
  rcases Nat.mod_two_eq_zero_or_one a.toNat with even | odd
  · rw [even, Nat.mul_zero, Nat.add_zero, Nat.mod_eq_of_lt hk]
    rfl
  · rw [odd]
    exact getLsbD_rotateRight_word _ 8 hk

section
variable {a : Word} {s : State}

theorem align2_of_even (even : a.getLsbD 0 = false) : align2 a = a := by
  rw [align2_eq_iff]
  rw [getLsbD_zero_eq] at even
  have : ¬a.toNat % 2 = 1 := of_decide_eq_false even
  omega

theorem align2_of_odd (odd : a.getLsbD 0 = true) : align2 a = a - 1 := by
  have bit : a.toNat % 2 = 1 := by
    rw [getLsbD_zero_eq] at odd
    exact of_decide_eq_true odd
  refine BitVec.eq_of_toNat_eq ?_
  have below : (align2 a).toNat = a.toNat / 2 * 2 := Width.align_toNat .half a
  rw [below, BitVec.toNat_sub]
  have small := a.isLt
  rw [show (1 : Word).toNat = 1 from rfl]
  omega

theorem loadHalfSigned_even (even : a.getLsbD 0 = false) :
    loadHalfSigned a s = (((cpuRead (align2 a) .half s).1.extractLsb' 0 16).signExtend 32, (cpuRead (align2 a) .half s).2) := by
  rw [align2_of_even even]
  exact if_neg (by rw [even]; exact Bool.false_ne_true)

theorem loadHalfSigned_odd (odd : a.getLsbD 0 = true) : loadHalfSigned a s = loadByteSigned a s := if_pos odd

/-- The halfword and signed loads of RAM (R311, R313, R314). -/
theorem loadHalf_ram (gba : s.bus = Bus.gba) (ram : isRam (region s.bus a) = true) :
    (a.getLsbD 0 = false →
      loadHalfRotated a s = ((byteAt s (a + 1) ++ byteAt s a).zeroExtend 32, s) ∧
      loadHalfSigned a s = ((byteAt s (a + 1) ++ byteAt s a).signExtend 32, s)) ∧
    (a.getLsbD 0 = true →
      loadHalfRotated a s = (byteAt s (a - 1) ++ 0#16 ++ byteAt s a, s) ∧
      loadHalfSigned a s = ((byteAt s a).signExtend 32, s)) ∧
    loadByteSigned a s = ((byteAt s a).signExtend 32, s) := by
  have half : cpuRead (align2 a) .half s = (valueAt s .half (align2 a), s) :=
    cpuRead_ram gba (align2_align2 a) (by rw [gba] at ram ⊢; exact (congrArg isRam (region_gba_align .half a)).trans ram)
  have byte : loadByteSigned a s = ((byteAt s a).signExtend 32, s) := by
    have read : cpuRead a .byte s = (valueAt s .byte a, s) := cpuRead_ram gba rfl ram
    have low : ((byteAt s a).zeroExtend 32).extractLsb' 0 8 = byteAt s a := extractLsb'_zeroExtend (by decide) _
    unfold loadByteSigned
    rw [read]
    exact congrArg (fun b : Byte => (b.signExtend 32, s)) low
  refine ⟨fun even => ⟨?_, ?_⟩, fun odd => ⟨?_, (loadHalfSigned_odd odd).trans byte⟩, byte⟩
  · rw [align2_of_even even] at half
    unfold loadHalfRotated
    rw [align2_of_even even, half, even]
    rfl
  · have low : (valueAt s .half a).extractLsb' 0 16 = byteAt s (a + 1) ++ byteAt s a :=
      extractLsb'_zeroExtend (by decide) _
    rw [loadHalfSigned_even even, half, align2_of_even even, low]
  · unfold loadHalfRotated
    rw [half, odd, align2_of_odd odd]
    have next : a - 1 + 1 = a := BitVec.sub_add_cancel a 1
    have turned : (valueAt s .half (a - 1)).rotateRight 8 = byteAt s (a - 1) ++ 0#16 ++ byteAt s a := by
      unfold valueAt
      rw [next]
      refine BitVec.eq_of_getLsbD_eq fun k hk => ?_
      rw [getLsbD_rotateRight_word _ _ hk]
      simp only [BitVec.getLsbD_setWidth, BitVec.getLsbD_append]
      interval_cases k <;> simp
    exact congrArg (·, s) turned

end

section
variable {a : Address} {p w : Bool} {rn rd : Reg} {s : State}

/-- The word and byte loads at an address that stops none of them. -/
theorem loadSingles_eq (hn : a.writeBack = true → rn ≠ 15) :
    (rd ≠ 15 → (s.strict = false ∨ ¬(a.writeBack = true ∧ rn = rd)) → ldrAccess p w a rn rd s.begun = .next
      { (loadRotated a.addr s.begun).2 with
        gpr := regsLoaded s a rn rd (loadRotated a.addr s.begun).1, pc := s.pc + 4 }) ∧
    ((p = true ∨ w = false) → ldrAccess p w a rn 15 s.begun = .next
      { (loadRotated a.addr s.begun).2 with gpr := regsStored s a rn, pc := align4 (loadRotated a.addr s.begun).1 }) ∧
    (rd ≠ 15 → (s.strict = false ∨ ¬(a.writeBack = true ∧ rn = rd)) → loadByte a rn rd s.begun = .next
      { (cpuRead a.addr .byte s.begun).2 with
        gpr := regsLoaded s a rn rd (cpuRead a.addr .byte s.begun).1, pc := s.pc + 4 }) := by
  refine ⟨fun hd free => ?_, fun plain => ldrAccess_jump plain hn, fun hd free => ?_⟩
  · rw [ldrAccess_finish p w hd]
    exact loadFinish_eq hn hd free (loadRotated_state _ _)
  · rw [loadByte_finish hd]
    exact loadFinish_eq hn hd free (cpuRead_state _ _ _)

end

/-- Settles O23: each load that runs is its corners, one read and the end of a load. -/
theorem loadWordOrByte : Obligations.LoadWordOrByte := by
  unfold Obligations.LoadWordOrByte
  refine ⟨fun base off w => ⟨rfl, rfl, rfl, rfl⟩, fun imm12 immH immL rm sh amt s => ⟨?_, ?_, rfl⟩,
    fun a s => ⟨rfl, fun k hk => getLsbD_loadRotated a s hk, loadRotated_ram⟩, ?_⟩
  · exact BitVec.toNat_setWidth_of_le (by decide)
  · rw [offsetHalf, BitVec.toNat_setWidth_of_le (by decide), BitVec.toNat_append]
    exact (Nat.shiftLeft_add_eq_or_of_lt immL.isLt immH.toNat).symm.trans (by rw [Nat.shiftLeft_eq])
  intro c p u w rn rd s
  refine ⟨fun imm12 => ?_, fun amt sh rm hm => ?_⟩
  · intro a hn
    obtain ⟨word, jump, byte⟩ := loadSingles_eq (p := p) (w := w) (rd := rd) (s := s) hn
    exact ⟨fun h hd free => ((exec_ldrImm h).trans (addressStops_imm hn)).trans (word hd free),
      fun h plain => ((exec_ldrImm h).trans (addressStops_imm hn)).trans (jump plain),
      fun h hd free => ((exec_ldrbImm h).trans (addressStops_imm hn)).trans (byte hd free)⟩
  · intro a hn
    obtain ⟨word, jump, byte⟩ := loadSingles_eq (p := p) (w := w) (rd := rd) (s := s) hn
    exact ⟨fun h hd free => ((exec_ldrReg h).trans (addressStops_reg hn hm)).trans (word hd free),
      fun h plain => ((exec_ldrReg h).trans (addressStops_reg hn hm)).trans (jump plain),
      fun h hd free => ((exec_ldrbReg h).trans (addressStops_reg hn hm)).trans (byte hd free)⟩

section
variable {a : Address} {rn rd : Reg} {s : State}

/-- The three halfword and signed loads at an address that stops none of them. -/
theorem loadHalves_eq (hn : a.writeBack = true → rn ≠ 15) (hd : rd ≠ 15)
    (free : s.strict = false ∨ ¬(a.writeBack = true ∧ rn = rd)) :
    ((s.strict = false ∨ a.addr.getLsbD 0 = false) → loadHalf a rn rd s.begun = .next
      { (loadHalfRotated a.addr s.begun).2 with
        gpr := regsLoaded s a rn rd (loadHalfRotated a.addr s.begun).1, pc := s.pc + 4 }) ∧
    (loadSignedByte a rn rd s.begun = .next
      { (loadByteSigned a.addr s.begun).2 with
        gpr := regsLoaded s a rn rd (loadByteSigned a.addr s.begun).1, pc := s.pc + 4 }) ∧
    ((s.strict = false ∨ a.addr.getLsbD 0 = false) → loadSignedHalf a rn rd s.begun = .next
      { (loadHalfSigned a.addr s.begun).2 with
        gpr := regsLoaded s a rn rd (loadHalfSigned a.addr s.begun).1, pc := s.pc + 4 }) := by
  refine ⟨fun aligned => ?_, ?_, fun aligned => ?_⟩
  · rw [loadHalf_finish hd, (unpredIf_cases s.begun _ _ _).1 aligned]
    exact loadFinish_eq hn hd free (loadHalfRotated_state _ _)
  · rw [loadSignedByte_finish hd]
    exact loadFinish_eq hn hd free (loadByteSigned_state _ _)
  · rw [loadSignedHalf_finish hd, (unpredIf_cases s.begun _ _ _).1 aligned]
    exact loadFinish_eq hn hd free (loadHalfSigned_state _ _)

end

/-- Settles O24: each load that runs is its corners, one read and the end of a load. -/
theorem loadHalfOrSigned : Obligations.LoadHalfOrSigned := by
  unfold Obligations.LoadHalfOrSigned
  have signed {n : Nat} (hn : n ≤ 32) (v : BitVec n) : (v.signExtend 32).toInt = v.toInt := BitVec.toInt_signExtend_of_le hn
  refine ⟨fun a s => ⟨rfl, rfl, fun k hk => getLsbD_loadHalfRotated a s hk, signed (by decide) _, fun even => ?_, fun odd => ?_⟩,
    fun a s gba ram => loadHalf_ram gba ram, fun c p u w rn rd s indexed hd => ⟨fun immH immL => ?_, fun sbz rm hm => ?_⟩⟩
  · rw [loadHalfSigned_even even]
    exact ⟨rfl, signed (by decide) _⟩
  · rw [loadHalfSigned_odd odd]
    exact ⟨rfl, signed (by decide) _⟩
  · intro a hn free
    obtain ⟨half, byte, signedHalf⟩ := loadHalves_eq hn hd free
    refine ⟨fun h aligned => ?_, fun h => ?_, fun h aligned => ?_⟩
    · exact ((halfImm_run h rfl rfl).trans ((halfStops_run indexed).trans (addressStops_imm hn))).trans (half aligned)
    · exact ((halfImm_run h rfl rfl).trans ((halfStops_run indexed).trans (addressStops_imm hn))).trans byte
    · exact ((halfImm_run h rfl rfl).trans ((halfStops_run indexed).trans (addressStops_imm hn))).trans (signedHalf aligned)
  · have offset : s.x rm = s.armX rm := (if_neg hm).symm
    rw [offset]
    intro a hn free
    obtain ⟨half, byte, signedHalf⟩ := loadHalves_eq hn hd free
    refine ⟨fun h aligned => ?_, fun h => ?_, fun h aligned => ?_⟩
    · exact ((halfReg_run h rfl rfl).trans ((halfStops_run indexed).trans (addressStops_reg hn hm))).trans (half aligned)
    · exact ((halfReg_run h rfl rfl).trans ((halfStops_run indexed).trans (addressStops_reg hn hm))).trans byte
    · exact ((halfReg_run h rfl rfl).trans ((halfStops_run indexed).trans (addressStops_reg hn hm))).trans (signedHalf aligned)

/-!
PROOFS. ARM and Thumb single stores (spec/42_arm_loadstore.md sections 1 and 2, rules R302, R304, R306, R308, R312;
spec/45_thumb_mem_branch.md rules R451, R452, R455, R459, R461, R463, R465): behind its gate and its corners each is one
store and one end.
-/

-- The end of a store

/-- The end of an ARM store that is not stopped: the write-back (R300). -/
def storeEnd (a : Address) (rn : Reg) (s : State) : Outcome := .next (writeBack a rn s).nextArm

theorem orFault_error {stored : Except Fault State} {e : Fault} (h : stored = .error e) (k : State → Outcome) :
    orFault stored k = .fault e := by rw [h]; rfl

section
variable {a : Address} {rn rd : Reg} {s : State}

theorem storeFinish_run (free : s.strict = false ∨ ¬(a.writeBack = true ∧ rn = rd)) (stored : Except Fault State) :
    storeFinish a rn rd stored s.begun = orFault stored (storeEnd a rn) :=
  (unpredIf_cases s.begun _ _ _).1 (backToRd_eq_false free)

/-- A strict machine stops a store that writes back to Rd (R300). -/
theorem storeFinish_stop (strict : s.strict = true) (wb : a.writeBack = true) (stored : Except Fault State) :
    storeFinish a rd rd stored s.begun = .fault (.unpredictable .strWbRd) := unpredIf_pos strict (by simp [wb]) _ _

theorem storeWord_run (free : s.strict = false ∨ ¬(a.writeBack = true ∧ rn = rd)) :
    storeWord a rn rd s.begun = orFault (cpuWrite (align4 a.addr) .word (s.armX12 rd) s.begun) (storeEnd a rn) :=
  storeFinish_run free _

theorem storeByte_run (hd : rd ≠ 15) (free : s.strict = false ∨ ¬(a.writeBack = true ∧ rn = rd)) :
    storeByte a rn rd s.begun = orFault (cpuWrite a.addr .byte (s.x rd) s.begun) (storeEnd a rn) :=
  (stopIf_neg (by simpa using hd) _ _).trans (storeFinish_run free _)

theorem storeHalf_run (free : s.strict = false ∨ (¬(a.writeBack = true ∧ rn = rd) ∧ rd ≠ 15 ∧ a.addr.getLsbD 0 = false)) :
    storeHalf a rn rd s.begun = orFault (cpuWrite (align2 a.addr) .half (s.armX12 rd) s.begun) (storeEnd a rn) := by
  unfold storeHalf
  rw [(unpredIf_cases s.begun _ _ _).1 (free.imp_right fun ⟨_, noPc, _⟩ => by simpa using noPc),
    (unpredIf_cases s.begun _ _ _).1 (free.imp_right fun ⟨_, _, even⟩ => even)]
  exact storeFinish_run (free.imp_right And.left) _

/-- A store that is not stopped, and the write-back after it. -/
theorem storeEnd_eq (hn : a.writeBack = true → rn ≠ 15) {b v : Word} {w : Width} (runs : StoreRuns b w v s.begun) :
    orFault (cpuWrite b w v s.begun) (storeEnd a rn) =
      .next { busWrite b w v s.begun with gpr := regsStored s a rn, pc := s.pc + 4 } := by
  rw [cpuWrite_of_storeRuns runs]
  show Host.Outcome.next (writeBack a rn (busWrite b w v s.begun)).nextArm = _
  rw [writeBack_eq hn, busWrite_frame b w v s.begun]
  rfl

end

/-- Settles O25: each store that runs is its corners, one store and the write-back. -/
theorem storeSingle : Obligations.StoreSingle := by
  unfold Obligations.StoreSingle
  intro c p u w rn rd s
  refine ⟨fun imm12 => ?_, fun amt sh rm hm => ?_, fun immH immL indexed => ?_, fun sbz rm hm indexed => ?_⟩
  · intro a hn free
    exact ⟨fun h runs => ((exec_strImm h).trans (addressStops_imm hn)).trans ((storeWord_run free).trans (storeEnd_eq hn runs)),
      fun h hd runs => ((exec_strbImm h).trans (addressStops_imm hn)).trans ((storeByte_run hd free).trans (storeEnd_eq hn runs))⟩
  · intro a hn free
    exact ⟨fun h runs => ((exec_strReg h).trans (addressStops_reg hn hm)).trans ((storeWord_run free).trans (storeEnd_eq hn runs)),
      fun h hd runs =>
        ((exec_strbReg h).trans (addressStops_reg hn hm)).trans ((storeByte_run hd free).trans (storeEnd_eq hn runs))⟩
  · intro a hn free h runs
    exact ((halfImm_run h rfl rfl).trans ((halfStops_run indexed).trans (addressStops_imm hn))).trans
      ((storeHalf_run free).trans (storeEnd_eq hn runs))
  · have offset : s.x rm = s.armX rm := (if_neg hm).symm
    rw [offset]
    intro a hn free h runs
    exact ((halfReg_run h rfl rfl).trans ((halfStops_run indexed).trans (addressStops_reg hn hm))).trans
      ((storeHalf_run free).trans (storeEnd_eq hn runs))

-- Thumb stores

section
variable (ro rb rd : LowReg) (off5 : BitVec 5) (word8 : BitVec 8) (s : State)

theorem exec_tStrReg : exec (.tStrReg ro rb rd) s =
    thumbStore (cpuWrite (align4 (s.x (low rb) + s.x (low ro))) .word (s.x (low rd)) s.begun) :=
  thumbRegOffset_run ro rb rd s fun a s => thumbStore (storeAligned a (s.x (low rd)) s)

theorem exec_tStrbReg : exec (.tStrbReg ro rb rd) s =
    thumbStore (cpuWrite (s.x (low rb) + s.x (low ro)) .byte (s.x (low rd)) s.begun) :=
  thumbRegOffset_run ro rb rd s fun a s => thumbStore (cpuWrite a .byte (s.x (low rd)) s)

theorem exec_tStrhReg : exec (.tStrhReg ro rb rd) s =
    unpredIf s.begun ((s.x (low rb) + s.x (low ro)).getLsbD 0) .strhUnaligned
      (thumbStore (cpuWrite (align2 (s.x (low rb) + s.x (low ro))) .half (s.x (low rd)) s.begun)) :=
  thumbRegOffset_run ro rb rd s fun a s => thumbStoreHalf a (s.x (low rd)) s

theorem exec_tStrImm : exec (.tStrImm off5 rb rd) s =
    thumbStore (cpuWrite (align4 (s.x (low rb) + scaled off5 2)) .word (s.x (low rd)) s.begun) :=
  thumbImmOffset_run rb rd s (fun a s => thumbStore (storeAligned a (s.x (low rd)) s)) off5 2

theorem exec_tStrbImm : exec (.tStrbImm off5 rb rd) s =
    thumbStore (cpuWrite (s.x (low rb) + scaled off5 0) .byte (s.x (low rd)) s.begun) :=
  thumbImmOffset_run rb rd s (fun a s => thumbStore (cpuWrite a .byte (s.x (low rd)) s)) off5 0

theorem exec_tStrhImm : exec (.tStrhImm off5 rb rd) s =
    unpredIf s.begun ((s.x (low rb) + scaled off5 1).getLsbD 0) .strhUnaligned
      (thumbStore (cpuWrite (align2 (s.x (low rb) + scaled off5 1)) .half (s.x (low rd)) s.begun)) :=
  thumbImmOffset_run rb rd s (fun a s => thumbStoreHalf a (s.x (low rd)) s) off5 1

theorem exec_tStrSp {s : State} (free : s.strict = false ∨ s.lastUsrBank = false) : exec (.tStrSp rd word8) s =
    thumbStore (cpuWrite (align4 (s.x 13 + scaled word8 2)) .word (s.x (low rd)) s.begun) :=
  thumbGate_run free [regSP, low rd] fun s => thumbStore (storeAligned (s.x regSP + scaled word8 2) (s.x (low rd)) s)

end

/-- The end of a Thumb store that is not stopped (R451). -/
theorem thumbStore_eq {a v : Word} {w : Width} {s : State} (runs : StoreRuns a w v s.begun) :
    thumbStore (cpuWrite a w v s.begun) = .next { busWrite a w v s.begun with pc := s.pc + 2 } := by
  rw [cpuWrite_of_storeRuns runs]
  show Host.Outcome.next (busWrite a w v s.begun).nextThumb = _
  rw [busWrite_frame a w v s.begun]
  rfl

/-- Settles O40: behind its gate each store is one store, which the case of an odd address guards for a halfword. -/
theorem thumbStores : Obligations.ThumbStores := by
  unfold Obligations.ThumbStores
  intro s rd v store
  have ends {a : Word} {w : Width} (runs : StoreRuns a w v s.begun) : thumbStore (cpuWrite a w v s.begun) = store a w :=
    thumbStore_eq runs
  clear_value store
  refine ⟨fun ro rb => ?_, fun off5 rb => ?_, fun word8 free => ?_⟩
  · intro a
    rw [exec_tStrReg, exec_tStrbReg, exec_tStrhReg]
    exact ⟨ends, ends, fun free runs => ((unpredIf_cases s.begun _ _ _).1 free).trans (ends runs)⟩
  · rw [← scaled_two, ← scaled_one, ← scaled_zero, exec_tStrImm, exec_tStrbImm, exec_tStrhImm]
    exact ⟨ends, ends, fun free runs => ((unpredIf_cases s.begun _ _ _).1 free).trans (ends runs)⟩
  · rw [← scaled_two, exec_tStrSp _ _ free]
    exact ends

end Sys2Proof.Machine

/-!
PROOFS. The stops of the ARM instructions that every machine makes (spec/00_scope.md rule R20; spec/40_arm_dataproc.md
rules R212, R213; spec/42_arm_loadstore.md): each is the first corner that holds, before any effect.
-/

namespace Sys2Proof.Machine

-- Exception returns

section
variable {s : State} {v : Word} {k : Unpredictable}

/-- An exception return in a mode without an SPSR (R56, R213). -/
theorem returnFromException_noSpsr (mode : s.cpsr.mode = .usr ∨ s.cpsr.mode = .sys) :
    returnFromException k v s = .error (.unpredictable k) := by
  have none : s.spsrOf s.cpsr.mode = none := (State.spsrOf_eq_none_iff s _).mpr mode
  simp only [returnFromException, restoreCpsr, none]

/-- An exception return to a mode value that is no mode (R54). -/
theorem returnFromException_badMode {q : Psr} (saved : s.spsrOf s.cpsr.mode = some q) (bad : Mode.ofBits q.m = none) :
    returnFromException k v s = .error (.unpredictable .badMode) := by
  have lost : q.restored = none := by simp only [Psr.restored, bad]
  simp only [returnFromException, restoreCpsr, saved, lost]

/-- The two stops of a data-processing instruction with S = 1 and Rd = 15 (R213). -/
theorem dpFinish_stops {op : DpOp} {n : Word} {b : Shifted} (hw : op.writesRd = true) :
    (s.cpsr.mode = .usr ∨ s.cpsr.mode = .sys →
      dpFinish op true 15 n b s.begun = .fault (.unpredictable .dpSPcNospsr)) ∧
    (∀ q : Psr, s.spsrOf s.cpsr.mode = some q → Mode.ofBits q.m = none →
      dpFinish op true 15 n b s.begun = .fault (.unpredictable .badMode)) := by
  have ret : dpFinish op true 15 n b s.begun = dpReturn (op.apply n b s.cpsr).value s.begun := by simp [dpFinish, hw]
  rw [ret]
  exact ⟨fun mode => orFault_error (returnFromException_noSpsr (s := s.begun) mode) _,
    fun q saved bad => orFault_error (returnFromException_badMode (s := s.begun) saved bad) _⟩

end

-- Single transfers of R15

section
variable (a : Address) (rn : Reg) (s : State)

theorem loadByte_pc : loadByte a rn 15 s = .fault (.unpredictable .ldrbPc) := stopIf_pos rfl _ _
theorem storeByte_pc : storeByte a rn 15 s = .fault (.unpredictable .strbPc) := stopIf_pos rfl _ _
theorem ldrtAccess_pc : ldrAccess false true a rn 15 s = .fault (.unpredictable .ldrtPc) :=
  stopIf_pos rfl _ (loadWord a rn 15 s)
theorem loadHalf_pc : loadHalf a rn 15 s = .fault (.unpredictable .ldrhPc) := stopIf_pos rfl _ _
theorem loadSignedByte_pc : loadSignedByte a rn 15 s = .fault (.unpredictable .ldrsbPc) := stopIf_pos rfl _ _
theorem loadSignedHalf_pc : loadSignedHalf a rn 15 s = .fault (.unpredictable .ldrshPc) := stopIf_pos rfl _ _

end

theorem blockStops_pc {n : Nat} (list : BitVec n) (s : State) (e : Outcome) :
    blockStops 15 list s e = .fault (.unpredictable .ldmStmPcBase) := stopIf_pos rfl _ _

/-- Write-back by P and W, as a proposition (R300). -/
theorem addressOf_writeBack_iff {b o : Word} {p u w : Bool} : (addressOf b o p u w).writeBack = true ↔ p = false ∨ w = true := by
  cases p <;> simp [addressOf]

/-- Write-back of a halfword or signed transfer, whose W is 0 where P is (R310). -/
theorem addressOf_writeBack_half {b o : Word} {p u w : Bool} (indexed : p = true ∨ w = false) :
    (addressOf b o p u w).writeBack = true ↔ p = w := by
  rw [addressOf_writeBack_iff]
  rcases indexed with rfl | rfl <;> simp [eq_comm]

-- The groups of rows that share a stop

section
variable (c : Cond) (p u w : Bool) (rn rd rm : Reg) (s : State)

section
variable (imm12 : BitVec 12) (amt : BitVec 5) (sh : Shift)

theorem single_wbPc (wb : p = false ∨ w = true) :
    ∀ i ∈ [ldrImmInstr c p u w 15 rd imm12, ldrRegInstr c p u w 15 rd amt sh rm, strImmInstr c p u w 15 rd imm12,
      strRegInstr c p u w 15 rd amt sh rm, ldrbImmInstr c p u w 15 rd imm12, ldrbRegInstr c p u w 15 rd amt sh rm,
      strbImmInstr c p u w 15 rd imm12, strbRegInstr c p u w 15 rd amt sh rm],
      Runs i s → exec i s = .fault (.unpredictable .lsWbPc) := by
  simp only [List.mem_cons, List.not_mem_nil, or_false, forall_eq_or_imp, forall_eq]
  have back {b o : Word} : (addressOf b o p u w).writeBack = true := addressOf_writeBack_iff.mpr wb
  exact ⟨fun h => (exec_ldrImm h).trans (addressStops_base back), fun h => (exec_ldrReg h).trans (addressStops_base back),
    fun h => (exec_strImm h).trans (addressStops_base back), fun h => (exec_strReg h).trans (addressStops_base back),
    fun h => (exec_ldrbImm h).trans (addressStops_base back), fun h => (exec_ldrbReg h).trans (addressStops_base back),
    fun h => (exec_strbImm h).trans (addressStops_base back), fun h => (exec_strbReg h).trans (addressStops_base back)⟩

theorem single_rmPc (base : p = false ∨ w = true → rn ≠ 15) :
    ∀ i ∈ [ldrRegInstr c p u w rn rd amt sh 15, strRegInstr c p u w rn rd amt sh 15, ldrbRegInstr c p u w rn rd amt sh 15,
      strbRegInstr c p u w rn rd amt sh 15],
      Runs i s → exec i s = .fault (.unpredictable .lsRmPc) := by
  simp only [List.mem_cons, List.not_mem_nil, or_false, forall_eq_or_imp, forall_eq]
  have hn {b o : Word} : (addressOf b o p u w).writeBack = true → rn ≠ 15 := fun back => base (addressOf_writeBack_iff.mp back)
  exact ⟨fun h => (exec_ldrReg h).trans (addressStops_offset hn), fun h => (exec_strReg h).trans (addressStops_offset hn),
    fun h => (exec_ldrbReg h).trans (addressStops_offset hn), fun h => (exec_strbReg h).trans (addressStops_offset hn)⟩

end

section
variable (immH immL sbz : BitVec 4)

theorem half_postW :
    ∀ i ∈ [.ldrhImm c false u true rn rd immH immL, .ldrhReg c false u true rn rd sbz rm,
      .ldrsbImm c false u true rn rd immH immL, .ldrsbReg c false u true rn rd sbz rm,
      .ldrshImm c false u true rn rd immH immL, .ldrshReg c false u true rn rd sbz rm,
      .strhImm c false u true rn rd immH immL, .strhReg c false u true rn rd sbz rm],
      Runs i s → exec i s = .fault (.unpredictable .ls3PostW) := by
  simp only [List.mem_cons, List.not_mem_nil, or_false, forall_eq_or_imp, forall_eq]
  exact ⟨fun h => (halfImm_run h rfl rfl).trans halfStops_post, fun h => (halfReg_run h rfl rfl).trans halfStops_post,
    fun h => (halfImm_run h rfl rfl).trans halfStops_post, fun h => (halfReg_run h rfl rfl).trans halfStops_post,
    fun h => (halfImm_run h rfl rfl).trans halfStops_post, fun h => (halfReg_run h rfl rfl).trans halfStops_post,
    fun h => (halfImm_run h rfl rfl).trans halfStops_post, fun h => (halfReg_run h rfl rfl).trans halfStops_post⟩

theorem half_wbPc (wb : p = w) :
    ∀ i ∈ [.ldrhImm c p u w 15 rd immH immL, .ldrhReg c p u w 15 rd sbz rm, .ldrsbImm c p u w 15 rd immH immL,
      .ldrsbReg c p u w 15 rd sbz rm, .ldrshImm c p u w 15 rd immH immL, .ldrshReg c p u w 15 rd sbz rm,
      .strhImm c p u w 15 rd immH immL, .strhReg c p u w 15 rd sbz rm],
      Runs i s → exec i s = .fault (.unpredictable .lsWbPc) := by
  simp only [List.mem_cons, List.not_mem_nil, or_false, forall_eq_or_imp, forall_eq]
  have indexed : p = true ∨ w = false := by subst wb; cases p <;> simp
  have stop {b o : Word} {m : Option Reg} {e : Outcome} :
      halfStops p w (addressOf b o p u w) 15 m e = .fault (.unpredictable .lsWbPc) :=
    (halfStops_run indexed).trans (addressStops_base ((addressOf_writeBack_half indexed).mpr wb))
  exact ⟨fun h => (halfImm_run h rfl rfl).trans stop, fun h => (halfReg_run h rfl rfl).trans stop,
    fun h => (halfImm_run h rfl rfl).trans stop, fun h => (halfReg_run h rfl rfl).trans stop,
    fun h => (halfImm_run h rfl rfl).trans stop, fun h => (halfReg_run h rfl rfl).trans stop,
    fun h => (halfImm_run h rfl rfl).trans stop, fun h => (halfReg_run h rfl rfl).trans stop⟩

theorem half_rmPc (indexed : p = true ∨ w = false) (base : p = w → rn ≠ 15) :
    ∀ i ∈ [.ldrhReg c p u w rn rd sbz 15, .ldrsbReg c p u w rn rd sbz 15, .ldrshReg c p u w rn rd sbz 15,
      .strhReg c p u w rn rd sbz 15],
      Runs i s → exec i s = .fault (.unpredictable .lsRmPc) := by
  simp only [List.mem_cons, List.not_mem_nil, or_false, forall_eq_or_imp, forall_eq]
  have stop {b o : Word} {e : Outcome} :
      halfStops p w (addressOf b o p u w) rn (some 15) e = .fault (.unpredictable .lsRmPc) :=
    (halfStops_run indexed).trans (addressStops_offset fun back => base ((addressOf_writeBack_half indexed).mp back))
  exact ⟨fun h => (halfReg_run h rfl rfl).trans stop, fun h => (halfReg_run h rfl rfl).trans stop,
    fun h => (halfReg_run h rfl rfl).trans stop, fun h => (halfReg_run h rfl rfl).trans stop⟩

end

end

theorem block_pcBase (c : Cond) (p u w : Bool) (list : BitVec 16) (list15 : BitVec 15) (s : State) :
    ∀ i ∈ [.ldm c p u w 15 list, .stm c p u w 15 list, .ldmUsr c p u w 15 list15, .stmUsr c p u w 15 list,
      .ldmRet c p u w 15 list15],
      Runs i s → exec i s = .fault (.unpredictable .ldmStmPcBase) := by
  simp only [List.mem_cons, List.not_mem_nil, or_false, forall_eq_or_imp, forall_eq]
  exact ⟨fun h => (h.armGate_eq rfl _ _).trans (blockStops_pc _ _ _), fun h => (h.armGate_eq rfl _ _).trans (blockStops_pc _ _ _),
    fun h => (h.armGate_eq rfl _ _).trans (blockStops_pc _ _ _), fun h => (h.armGate_eq rfl _ _).trans (blockStops_pc _ _ _),
    fun h => (h.armGate_eq rfl _ _).trans (blockStops_pc _ _ _)⟩

/-- Settles O30, group by group: each stop is the first corner that holds. -/
theorem unpredictableStops : Obligations.UnpredictableStops := by
  unfold Obligations.UnpredictableStops
  refine ⟨fun op c sf sbz rn rd sh rm s h => ?_, fun op c sbz rn rot imm8 amt rs sh rm s i hw h form => ?_,
    fun c p u w rn rd imm12 amt sh rm s => ⟨?_, fun base => ⟨?_, ?_, ?_⟩, fun base => ?_⟩,
    fun c p u w rn rd immH immL sbz rm s => ⟨?_, ?_, fun indexed base => ⟨?_, ?_, ?_, ?_⟩⟩, block_pcBase⟩
  · rw [exec_dpRsr h]
    exact stopIf_pos rfl _ _
  · rcases form with rfl | rfl | ⟨rfl, hs, lenient⟩
    · rw [exec_dpImm h]
      exact dpFinish_stops hw
    · rw [exec_dpRsi h]
      exact dpFinish_stops hw
    · rw [exec_dpRsr_run h hs (.inl lenient)]
      exact dpFinish_stops hw
  · exact single_wbPc c p u w rd rm s imm12 amt sh
  · exact single_rmPc c p u w rn rd s amt sh base
  · have hn {b o : Word} : (addressOf b o p u w).writeBack = true → rn ≠ 15 := fun back => base (addressOf_writeBack_iff.mp back)
    rintro i (rfl | ⟨rfl, hm⟩) h
    · exact ((exec_ldrbImm h).trans (addressStops_imm hn)).trans (loadByte_pc _ _ _)
    · exact ((exec_ldrbReg h).trans (addressStops_reg hn hm)).trans (loadByte_pc _ _ _)
  · have hn {b o : Word} : (addressOf b o p u w).writeBack = true → rn ≠ 15 := fun back => base (addressOf_writeBack_iff.mp back)
    rintro i (rfl | ⟨rfl, hm⟩) h
    · exact ((exec_strbImm h).trans (addressStops_imm hn)).trans (storeByte_pc _ _ _)
    · exact ((exec_strbReg h).trans (addressStops_reg hn hm)).trans (storeByte_pc _ _ _)
  · rintro i (rfl | ⟨rfl, hm⟩) h
    · exact ((exec_ldrImm (p := false) (w := true) h).trans (addressStops_imm fun _ => base)).trans (ldrtAccess_pc _ _ _)
    · exact ((exec_ldrReg (p := false) (w := true) h).trans (addressStops_reg (fun _ => base) hm)).trans (ldrtAccess_pc _ _ _)
  · exact half_postW c u rn rd rm s immH immL sbz
  · exact half_wbPc c p u w rd rm s immH immL sbz
  · exact half_rmPc c p u w rn rd s sbz indexed base
  all_goals
    have hn {b o : Word} : (addressOf b o p u w).writeBack = true → rn ≠ 15 :=
      fun back => base ((addressOf_writeBack_half indexed).mp back)
    rintro i (rfl | ⟨rfl, hm⟩) h
  · exact ((halfImm_run h rfl rfl).trans ((halfStops_run indexed).trans (addressStops_imm hn))).trans (loadHalf_pc _ _ _)
  · exact ((halfReg_run h rfl rfl).trans ((halfStops_run indexed).trans (addressStops_reg hn hm))).trans (loadHalf_pc _ _ _)
  · exact ((halfImm_run h rfl rfl).trans ((halfStops_run indexed).trans (addressStops_imm hn))).trans (loadSignedByte_pc _ _ _)
  · exact ((halfReg_run h rfl rfl).trans ((halfStops_run indexed).trans (addressStops_reg hn hm))).trans (loadSignedByte_pc _ _ _)
  · exact ((halfImm_run h rfl rfl).trans ((halfStops_run indexed).trans (addressStops_imm hn))).trans (loadSignedHalf_pc _ _ _)
  · exact ((halfReg_run h rfl rfl).trans ((halfStops_run indexed).trans (addressStops_reg hn hm))).trans (loadSignedHalf_pc _ _ _)

/-!
PROOFS. Block transfers (spec/42_arm_loadstore.md section 3, rules R320 to R324): what loading and storing a list of words
does, and LDM, STM and the exception return behind their gates and corners.
-/

-- Loading a list

/-- Loaded registers written by a register write of a mode, R15 apart (R321). -/
theorem writeLoaded_eq {set : State → Reg → Word → State} {m k : Mode}
    (writes : ∀ (u : State) (r : Reg) (v : Word), u.cpsr.mode = k → r ≠ 15 →
      set u r v = { u with gpr := u.gpr.set (physReg m r) v })
    (loaded : List (Reg × Word)) {s : State} (mode : s.cpsr.mode = k) :
    writeLoaded set loaded s = { s with gpr := regsListed m loaded s.gpr } := by
  induction loaded generalizing s with
  | nil => rfl
  | cons p rest ih =>
    obtain ⟨r, v⟩ := p
    show writeLoaded set rest (if r = 15 then s else set s r v) =
      { s with gpr := regsListed m rest (if r = 15 then s.gpr else s.gpr.set (physReg m r) v) }
    by_cases hr : r = 15
    · rw [if_pos hr, if_pos hr]
      exact ih mode
    · rw [if_neg hr, if_neg hr, writes s r v mode hr]
      exact ih (s := { s with gpr := s.gpr.set (physReg m r) v }) mode

theorem writeLoaded_setX (loaded : List (Reg × Word)) (s : State) :
    writeLoaded State.setX loaded s = { s with gpr := regsListed s.cpsr.mode loaded s.gpr } :=
  writeLoaded_eq (fun u r v mode hr => by simp only [State.setX_reg hr, mode]) loaded rfl

theorem writeLoaded_setXUsr (loaded : List (Reg × Word)) (s : State) :
    writeLoaded State.setXUsr loaded s = { s with gpr := regsListed .usr loaded s.gpr } :=
  writeLoaded_eq (k := s.cpsr.mode) (fun u _ v _ hr => State.setXUsr_reg hr u v) loaded rfl

/-- The write-back of a block load (R321). -/
theorem loadWriteBack_eq {n : Nat} {w : Bool} {rn : Reg} {list : BitVec n} {b : Block} (hn : rn ≠ 15) (s : State) :
    loadWriteBack w rn list b s =
      { s with gpr := if w && !list.getLsbD rn.toNat then s.gpr.set (physReg s.cpsr.mode rn) b.after else s.gpr } := by
  unfold loadWriteBack inList
  split
  · exact State.setX_reg hn _ _
  · rfl

/-- The next word of a block. -/
theorem next_word (a : Word) (k : Nat) : a + 4 + BitVec.ofNat 32 (4 * k) = a + BitVec.ofNat 32 (4 * (k + 1)) := by
  have step : BitVec.ofNat 32 (4 * (k + 1)) = 4 + BitVec.ofNat 32 (4 * k) := by
    rw [Nat.mul_succ, Nat.add_comm, BitVec.ofNat_add]
    rfl
  rw [step, BitVec.add_assoc]

theorem isRam_align4 {s : State} {a : Word} (gba : s.bus = Bus.gba) (ram : isRam (region s.bus a) = true) :
    isRam (region s.bus (align4 a)) = true := by
  rw [gba] at ram ⊢
  exact (congrArg isRam (region_gba_align .word a)).trans ram

/-- The words a list loads from RAM (R321). -/
theorem loadList_ram {regs : List Reg} {a : Word} {s : State} (gba : s.bus = Bus.gba)
    (ram : ∀ k < regs.length, isRam (region s.bus (a + BitVec.ofNat 32 (4 * k))) = true) :
    loadList a regs s =
      (regs.mapIdx fun k r => (r, valueAt s .word (align4 (a + BitVec.ofNat 32 (4 * k)))), s) := by
  induction regs generalizing a with
  | nil => rfl
  | cons r rest ih =>
    have first : a + BitVec.ofNat 32 (4 * 0) = a := BitVec.add_zero a
    have here : isRam (region s.bus a) = true := by rw [← first]; exact ram 0 (Nat.succ_pos _)
    have read : cpuRead (align4 a) .word s = (valueAt s .word (align4 a), s) :=
      cpuRead_ram gba (align4_align4 a) (isRam_align4 gba here)
    have more := ih (a := a + 4) fun k hk => by rw [next_word]; exact ram (k + 1) (Nat.succ_lt_succ hk)
    simp only [next_word] at more
    simp only [loadList, read, more, List.mapIdx_cons, first]

-- Storing a list

/-- A list whose front runs comes to its back (R322). -/
theorem storeList_append {front : List Word} (back : List Word) {a : Word} {s : State} (runs : StoresRun a front s) :
    storeList a (front ++ back) s = storeList (a + BitVec.ofNat 32 (4 * front.length)) back (storeWords a front s) := by
  induction front generalizing a s with
  | nil => exact congrArg (storeList · back s) (BitVec.add_zero a).symm
  | cons v rest ih =>
    obtain ⟨first, others⟩ := runs
    have stored : storeAligned a v s = .ok (busWrite (align4 a) .word v s) := cpuWrite_of_storeRuns first
    rw [List.cons_append, List.length_cons, ← next_word]
    simp only [storeList, stored]
    exact ih others

/-- A list of stores none of which is stopped (R322). -/
theorem storeList_run {vs : List Word} {a : Word} {s : State} (runs : StoresRun a vs s) :
    storeList a vs s = .ok (storeWords a vs s) := by
  have whole := storeList_append [] runs
  rwa [List.append_nil] at whole

/-- A list of stores stops where the first of them does. -/
theorem storeList_stop {vs : List Word} {a : Word} {s : State} {e : Fault} (stops : StoresStop a vs s e) :
    storeList a vs s = .error e := by
  obtain ⟨front, v, back, rfl, runs, stop⟩ := stops
  rw [storeList_append _ runs]
  have stopped : storeAligned (a + BitVec.ofNat 32 (4 * front.length)) v (storeWords a front s) = .error e := stop
  simp only [storeList, stopped]

theorem storeWords_frame (a : Word) (vs : List Word) (s : State) :
    storeWords a vs s = { s with mem := (storeWords a vs s).mem, dev := (storeWords a vs s).dev } := by
  induction vs generalizing a s with
  | nil => rfl
  | cons v rest ih =>
    show storeWords (a + 4) rest (busWrite (align4 a) .word v s) =
      { s with
        mem := (storeWords (a + 4) rest (busWrite (align4 a) .word v s)).mem
        dev := (storeWords (a + 4) rest (busWrite (align4 a) .word v s)).dev }
    rw [ih, busWrite_frame]

-- Words of RAM

/-- Bytes of two words of a block are two bytes of RAM. -/
theorem cell_words_apart {p : Word} {m x y : Nat} (aligned : p.toNat % 4 = 0) (hm : 0 < m ∧ m < 16) (hx : x < 4) (hy : y < 4)
    (ramP : isRam (region Bus.gba p) = true) :
    cell Bus.gba (p + BitVec.ofNat 32 x) ≠ cell Bus.gba (p + BitVec.ofNat 32 (4 * m) + BitVec.ofNat 32 y) := by
  intro same
  generalize hq : p + BitVec.ofNat 32 (4 * m) = q at *
  have place : q.toNat = (p.toNat + 4 * m) % 2 ^ 32 := by
    rw [← hq, BitVec.toNat_add, BitVec.toNat_ofNat, Nat.add_mod_mod]
  have wordP : Width.word.align p = p := Width.align_eq_iff.mpr aligned
  have wordQ : Width.word.align q = q := Width.align_eq_iff.mpr (by rw [place]; show _ % 4 = 0; omega)
  have regionP := region_gba_add wordP (show x < Width.word.bytes from hx)
  have regionQ := region_gba_add wordQ (show y < Width.word.bytes from hy)
  have regions : region Bus.gba q = region Bus.gba p := regionQ.symm.trans ((region_eq_of_cell_gba same).symm.trans regionP)
  have places := (cell_gba_eq_iff (isRam_size ramP) regionP (regionQ.trans regions)).mp same
  rw [toNat_add_of_aligned wordP (show x < Width.word.bytes from hx),
    toNat_add_of_aligned wordQ (show y < Width.word.bytes from hy), place] at places
  generalize region Bus.gba p = r at *
  cases r <;> simp only [isRam, Bool.false_eq_true] at ramP <;> simp only [regionPlace] at places
  case vram =>
    unfold vramFold at places
    dsimp only at places
    split at places <;> split at places <;> omega
  all_goals omega

/-- The word-aligned place of a word of a block. -/
theorem align4_next (a : Word) (k : Nat) : align4 (a + BitVec.ofNat 32 (4 * k)) = align4 a + BitVec.ofNat 32 (4 * k) := by
  have value (b : Word) : (align4 b).toNat = b.toNat / 4 * 4 := Width.align_toNat .word b
  refine BitVec.eq_of_toNat_eq ?_
  rw [value, BitVec.toNat_add, BitVec.toNat_add, value, BitVec.toNat_ofNat]
  omega

/-- What storing a list leaves of RAM (R322): each word at its place, every other byte and all beside memory. -/
theorem storeWords_ram {vs : List Word} {a : Word} {s : State} (gba : s.bus = Bus.gba) (short : vs.length ≤ 16)
    (ram : ∀ k < vs.length, isRam (region s.bus (a + BitVec.ofNat 32 (4 * k))) = true) :
    (∀ k < vs.length, vs[k]? = some (valueAt (storeWords a vs s) .word (align4 (a + BitVec.ofNat 32 (4 * k))))) ∧
    (∀ b : Word, (∀ k < vs.length, ∀ x < 4,
        cell s.bus b ≠ cell s.bus (align4 (a + BitVec.ofNat 32 (4 * k)) + BitVec.ofNat 32 x)) →
      byteAt (storeWords a vs s) b = byteAt s b) ∧
    storeWords a vs s = s.setMem (storeWords a vs s).mem := by
  induction vs generalizing a s with
  | nil => exact ⟨fun k hk => absurd hk k.not_lt_zero, fun b _ => rfl, rfl⟩
  | cons v rest ih =>
    have first : a + BitVec.ofNat 32 (4 * 0) = a := BitVec.add_zero a
    have ramHere : isRam (region s.bus (align4 a)) = true :=
      isRam_align4 gba (by rw [← first]; exact ram 0 (Nat.succ_pos _))
    obtain ⟨stored, others, memory⟩ := busWrite_ram (w := .word) gba ramHere (align4_align4 a) (fun e => Width.noConfusion e) v
    have bus : (busWrite (align4 a) .word v s).bus = s.bus := by rw [memory]; rfl
    obtain ⟨words, kept, frame⟩ := ih (a := a + 4) (s := busWrite (align4 a) .word v s) (bus.trans gba)
      (Nat.le_of_succ_le short) fun k hk => by rw [next_word, bus]; exact ram (k + 1) (Nat.succ_lt_succ hk)
    simp only [next_word, bus] at words kept
    show (∀ k < rest.length + 1, _) ∧ (∀ b : Word, (∀ k < rest.length + 1, _) → _) ∧ _
    have unfolded : storeWords a (v :: rest) s = storeWords (a + 4) rest (busWrite (align4 a) .word v s) := rfl
    rw [unfolded]
    generalize storeWords (a + 4) rest (busWrite (align4 a) .word v s) = t at *
    refine ⟨fun k hk => ?_, fun b free => ?_, ?_⟩
    · cases k with
      | zero =>
        rw [first]
        refine congrArg some (BitVec.eq_of_getLsbD_eq fun i hi => ?_)
        have byte : getByte v (i / 8) = getByte (valueAt t .word (align4 a)) (i / 8) := by
          have hx : i / 8 < Width.word.bytes := show i / 8 < 4 by omega
          rw [getByte_valueAt _ _ _ hx, ← stored _ hx]
          refine (kept _ fun k hk x hx' => ?_).symm
          rw [align4_next]
          rw [gba] at ramHere ⊢
          exact cell_words_apart (align4_eq_iff _ |>.mp (align4_align4 a)) ⟨Nat.succ_pos k, by simp at short; omega⟩ hx hx'
            ramHere
        have bit := congrArg (·.getLsbD (i % 8)) byte
        simp only [getLsbD_getByte] at bit
        rwa [decide_eq_true (Nat.mod_lt i (by decide)), Bool.true_and, Bool.true_and, Nat.div_add_mod] at bit
      | succ k => exact words k (Nat.lt_of_succ_lt_succ hk)
    · rw [kept b fun k hk => free (k + 1) (Nat.succ_lt_succ hk), others b fun x hx => ?_]
      have here := free 0 (Nat.succ_pos _) x hx
      rwa [first] at here
    · rw [frame, memory]
      rfl

-- LDM and STM

theorem regList_eq_nil {n : Nat} (hn : n ≤ 16) (list : BitVec n) : regList list = [] ↔ list = 0 :=
  List.isEmpty_iff.symm.trans (regList_isEmpty hn list)

section
variable {c : Cond} {p u w : Bool} {rn : Reg} {s : State}

theorem blockStops_run {n : Nat} {list : BitVec n} (hn : rn ≠ 15) (listed : s.strict = false ∨ list ≠ 0) (e : Outcome) :
    blockStops rn list s.begun e = e := by
  unfold blockStops
  rw [stopIf_neg (by simpa using hn), (unpredIf_cases s.begun _ _ _).1 (listed.imp_right fun h => by simpa using h)]

/-- The end of a block load: R15 loaded is a branch (R321). -/
def loadBlockEnd (loaded : List (Reg × Word)) (s : State) : Outcome :=
  match loadedPc loaded with
  | some v => .next (s.setPc (align4 v))
  | none => .next s.nextArm

/-- The registers of a block loaded, and the base written back (R321). -/
def loadBlock (w : Bool) (rn : Reg) {n : Nat} (list : BitVec n) (b : Block) (l : List (Reg × Word) × State) : State :=
  loadWriteBack w rn list b (writeLoaded State.setX l.1 l.2)

theorem loadBlock_eq {n : Nat} {list : BitVec n} {b : Block} (hn : rn ≠ 15) {l : List (Reg × Word) × State}
    (read : ∃ d, l.2 = { s.begun with draws := d }) :
    loadBlock w rn list b l = { l.2 with
      gpr := if w && !list.getLsbD rn.toNat then (regsListed s.cpsr.mode l.1 s.gpr).set (physReg s.cpsr.mode rn) b.after
        else regsListed s.cpsr.mode l.1 s.gpr } := by
  obtain ⟨d, read⟩ := read
  unfold loadBlock
  rw [writeLoaded_setX, loadWriteBack_eq hn, read]
  rfl

theorem exec_ldm {list : BitVec 16} (h : Runs (.ldm c p u w rn list) s) :
    exec (.ldm c p u w rn list) s = blockStops rn list s.begun
      (unpredIf s.begun (w && inList rn list) .ldmWbBaseInList
        (loadBlockEnd (loadList (blockOf (s.x rn) p u list).start (blockOf (s.x rn) p u list).regs s.begun).1
          (loadBlock w rn list (blockOf (s.x rn) p u list)
            (loadList (blockOf (s.x rn) p u list).start (blockOf (s.x rn) p u list).regs s.begun)))) :=
  h.armGate_eq rfl _ _

theorem exec_ldmRet {list : BitVec 15} (h : Runs (.ldmRet c p u w rn list) s) :
    exec (.ldmRet c p u w rn list) s = blockStops rn (1#1 ++ list) s.begun
      (unpredIf s.begun (w && inList rn list) .ldmWbBaseInList
        (orFault (returnFromException .ldmRetNospsr
          (lastLoaded (loadList (blockOf (s.x rn) p u (1#1 ++ list)).start (blockOf (s.x rn) p u (1#1 ++ list)).regs s.begun).1)
          (loadBlock w rn list (blockOf (s.x rn) p u (1#1 ++ list))
            (loadList (blockOf (s.x rn) p u (1#1 ++ list)).start (blockOf (s.x rn) p u (1#1 ++ list)).regs s.begun))) .next)) :=
  h.armGate_eq rfl _ _

/-- The end of a block store (R322). -/
def storeBlockEnd (w : Bool) (rn : Reg) (b : Block) (s : State) : Outcome :=
  .next (if w then s.setX rn b.after else s).nextArm

theorem exec_stm {list : BitVec 16} (h : Runs (.stm c p u w rn list) s) :
    exec (.stm c p u w rn list) s = blockStops rn list s.begun
      (unpredIf s.begun (w && baseNotLowest rn list) .stmWbBaseNotLowest
        (orFault (storeList (blockOf (s.x rn) p u list).start
            ((blockOf (s.x rn) p u list).regs.map (storedValue w rn list (blockOf (s.x rn) p u list) s.begun)) s.begun)
          (storeBlockEnd w rn (blockOf (s.x rn) p u list)))) :=
  h.armGate_eq rfl _ _

theorem baseNotLowest_iff {n : Nat} {list : BitVec n} :
    baseNotLowest rn list = true ↔ list.getLsbD rn.toNat = true ∧ (regList list).head? ≠ some rn := by
  simp [baseNotLowest, inList]

/-- What STM stores for a register (R322). -/
theorem storedValue_eq {n : Nat} {list : BitVec n} (hn : rn ≠ 15) (b : Block) (r : Reg) :
    storedValue w rn list b s.begun r = if r = 15 then s.pc + 12
      else if (w = true ∧ list.getLsbD rn.toNat = true ∧ (regList list).head? ≠ some rn) ∧ r = rn then b.after else s.x r := by
  have base : (w && baseNotLowest rn list && r == rn) = true ↔
      (w = true ∧ list.getLsbD rn.toNat = true ∧ (regList list).head? ≠ some rn) ∧ r = rn := by
    rw [Bool.and_eq_true, Bool.and_eq_true, baseNotLowest_iff, beq_iff_eq]
  unfold storedValue
  rw [if_congr base rfl rfl]
  by_cases hr : r = 15
  · rw [if_pos hr, if_neg fun h => hn (h.2.symm.trans hr)]
    exact if_pos hr
  · rw [if_neg hr]
    exact if_congr Iff.rfl rfl (if_neg hr)

/-- The stores of an STM that nothing stops before them (R322). -/
theorem exec_stm_run {list : BitVec 16} (h : Runs (.stm c p u w rn list) s) (hn : rn ≠ 15) (listed : s.strict = false ∨ list ≠ 0)
    (free : s.strict = false ∨ ¬(w = true ∧ list.getLsbD rn.toNat = true ∧ (regList list).head? ≠ some rn)) :
    exec (.stm c p u w rn list) s =
      orFault (storeList (blockOf (s.x rn) p u list).start
        ((blockOf (s.x rn) p u list).regs.map fun r => if r = 15 then s.pc + 12
          else if (w = true ∧ list.getLsbD rn.toNat = true ∧ (regList list).head? ≠ some rn) ∧ r = rn
            then (blockOf (s.x rn) p u list).after else s.x r) s.begun)
        (storeBlockEnd w rn (blockOf (s.x rn) p u list)) := by
  have notMoved : s.strict = false ∨ (w && baseNotLowest rn list) = false := free.imp_right fun apart => by
    rw [Bool.eq_false_iff, Ne, Bool.and_eq_true, baseNotLowest_iff]
    exact apart
  rw [exec_stm h, blockStops_run hn listed, (unpredIf_cases s.begun _ _ _).1 notMoved]
  have values := funext (storedValue_eq (w := w) (list := list) (s := s) hn (blockOf (s.x rn) p u list))
  rw [values]

/-- The end of a block store after stores that leave the registers. -/
theorem storeBlockEnd_eq (hn : rn ≠ 15) (b : Block) (a : Word) (vs : List Word) :
    storeBlockEnd w rn b (storeWords a vs s.begun) = .next { storeWords a vs s.begun with
      gpr := if w then regsWith s rn b.after else s.gpr, pc := s.pc + 4 } := by
  unfold storeBlockEnd
  rw [State.setX_reg hn, storeWords_frame]
  cases w <;> rfl

end

/-- Settles O27: the words of a list move one by one, and behind its gate and corners each transfer is its list, its
write-back and its branch. -/
theorem blockTransfers : Obligations.BlockTransfers := by
  unfold Obligations.BlockTransfers
  refine ⟨fun a regs s gba ram => loadList_ram gba ram, fun a vs s gba short ram => storeWords_ram gba short ram, ?_⟩
  intro c p u w rn list s hn listed b
  refine ⟨fun h free => ?_, fun h free => ?_⟩
  · intro l g
    have inside : s.strict = false ∨ (w && inList rn list) = false := free.imp_right fun apart => by
      rw [Bool.eq_false_iff, Ne, Bool.and_eq_true]
      exact apart
    have read : ∃ d, l.2 = { s.begun with draws := d } := loadList_state _ _ _
    rw [exec_ldm h, blockStops_run hn listed, (unpredIf_cases s.begun _ _ _).1 inside, loadBlock_eq hn read]
    change loadBlockEnd l.1 _ = _
    clear_value l
    obtain ⟨d, read⟩ := read
    rw [read]
    unfold loadBlockEnd
    cases loadedPc l.1 <;> rfl
  · intro vs runs
    rw [exec_stm_run h hn listed free]
    have values : vs = (b.regs.map fun r => if r = 15 then s.pc + 12
        else if (w = true ∧ list.getLsbD rn.toNat = true ∧ (regList list).head? ≠ some rn) ∧ r = rn then b.after else s.x r) := by
      simp only [vs, and_assoc]
    rw [← values, storeList_run runs]
    exact storeBlockEnd_eq hn b _ vs

/-- The word loaded for R15, where a list has it. -/
theorem loadedPc_of_mem {loaded : List (Reg × Word)} (h : 15 ∈ loaded.map Prod.fst) :
    ∃ v, loadedPc loaded = some v := by
  induction loaded with
  | nil => exact absurd h List.not_mem_nil
  | cons p rest ih =>
    obtain ⟨r, v⟩ := p
    by_cases hr : r = 15
    · exact ⟨v, if_pos hr⟩
    · have later : 15 ∈ rest.map Prod.fst := (List.mem_cons.mp h).resolve_left fun e => hr e.symm
      obtain ⟨v', hv⟩ := ih later
      exact ⟨v', (if_neg hr).trans hv⟩

/-- Settles O29: the registers and the write-back, and then the exception return to the word loaded for R15. -/
theorem ldmReturns : Obligations.LdmReturns := by
  unfold Obligations.LdmReturns
  intro c p u w rn list s h hn free b l g
  have listed15 : (1#1 ++ list).getLsbD 15 = true := by
    rw [BitVec.getLsbD_append]
    rfl
  have nonzero : (1#1 ++ list : BitVec 16) ≠ 0 := fun e => by
    rw [e] at listed15
    exact Bool.noConfusion listed15
  have inside : s.strict = false ∨ (w && inList rn list) = false := free.imp_right fun apart => by
    rw [Bool.eq_false_iff, Ne, Bool.and_eq_true]
    exact apart
  have read : ∃ d, l.2 = { s.begun with draws := d } := loadList_state _ _ _
  have registers : loadBlock w rn list b l = { l.2 with
      gpr := if w && !list.getLsbD rn.toNat then g.set (physReg s.cpsr.mode rn) b.after else g } := loadBlock_eq hn read
  have run : exec (.ldmRet c p u w rn list) s =
      orFault (returnFromException .ldmRetNospsr (lastLoaded l.1) (loadBlock w rn list b l)) .next := by
    rw [exec_ldmRet h, blockStops_run hn (.inr nonzero), (unpredIf_cases s.begun _ _ _).1 inside]
  have pcLoaded : ∃ v, loadedPc l.1 = some v := by
    refine loadedPc_of_mem ?_
    rw [loadList_regs]
    show (15 : Reg) ∈ (if (regList (1#1 ++ list)).isEmpty then [15] else regList (1#1 ++ list))
    rw [if_neg (mt (regList_isEmpty (by decide) _).mp nonzero)]
    exact (mem_regList (by decide)).mpr listed15
  obtain ⟨v, hv⟩ := pcLoaded
  have last : lastLoaded l.1 = v := by rw [lastLoaded, hv]; rfl
  rw [run, last, registers]
  clear_value l
  obtain ⟨d, read⟩ := read
  rw [read]
  generalize (if w && !list.getLsbD rn.toNat then g.set (physReg s.cpsr.mode rn) b.after else g) = regs
  refine ⟨fun q cpsr saved restored => ⟨v, hv, ?_⟩, fun mode => orFault_error (by exact returnFromException_noSpsr mode) _,
    fun q saved bad => orFault_error (by exact returnFromException_badMode (q := q) saved bad) _⟩
  have back := returnFromException_eq (k := .ldmRetNospsr) (v := v) (s := { s.begun with draws := d, gpr := regs }) saved restored
  exact congrArg (orFault · .next) back

/-!
PROOFS. PUSH, POP, STMIA and LDMIA (spec/45_thumb_mem_branch.md section 2, rules R467 to R470): behind its gate and the case
of an empty list each is its list and the new base.
-/

-- Lists of Thumb instructions

theorem thumbMoved_eq (regs : List Reg) : thumbMoved regs = if regs = [] then [15] else regs :=
  if_congr List.isEmpty_iff rfl rfl

theorem thumbBlockSize_eq (regs : List Reg) :
    thumbBlockSize regs = if regs = [] then 0x40 else BitVec.ofNat 32 (4 * regs.length) :=
  if_congr List.isEmpty_iff rfl rfl

theorem thumbList_none (list : BitVec 8) : thumbList list none = regList list := List.append_nil _

theorem thumbList_extra (list : BitVec 8) (r : Bool) (q : Reg) :
    thumbList list (if r then some q else none) = regList list ++ (if r then [q] else []) := by
  cases r <;> rfl

/-- The list of PUSH and POP is empty where neither a register nor the extra one is listed (R467, R468). -/
theorem thumbList_nonempty {list : BitVec 8} {r : Bool} (listed : r = true ∨ list ≠ 0) (q : Reg) :
    (regList list ++ (if r then [q] else [])).isEmpty = false := by
  rw [Bool.eq_false_iff, Ne, List.isEmpty_iff, List.append_eq_nil_iff, regList_eq_nil (by decide)]
  rintro ⟨none, noExtra⟩
  rcases listed with rfl | listed
  · exact absurd noExtra (List.cons_ne_nil _ _)
  · exact listed none

/-- A Thumb instruction of low registers, however listed, runs its effect (R611). -/
theorem thumbGate_of_low {regs : List Reg} (low8 : ∀ r ∈ regs, r.toNat < 8) (s : State) (body : State → Outcome) :
    thumbGate regs s body = body s.begun := by
  have each : ∀ r : Reg, r.toNat < 8 → low (r.setWidth 3) = r := by decide
  have listed : (regs.map fun r => (r.setWidth 3 : LowReg)).map low = regs := by
    rw [List.map_map]
    exact (List.map_congr_left fun r hr => each r (low8 r hr)).trans (List.map_id regs)
  rw [← listed]
  exact thumbGate_low _ s body

theorem toNat_low : ∀ rb : LowReg, (low rb).toNat = rb.toNat := by decide

/-- The base and the list of STMIA and LDMIA are low registers (R469, R470). -/
theorem low_of_mem_thumbList {rb : LowReg} {list : BitVec 8} : ∀ r ∈ low rb :: thumbList list none, r.toNat < 8 := by
  intro r hr
  rcases List.mem_cons.mp hr with rfl | hr
  · rw [toNat_low]
    exact rb.isLt
  · rw [thumbList_none, mem_regList (by decide)] at hr
    exact BitVec.lt_of_getLsbD hr

-- Ends

/-- The end of PUSH and STMIA: the base (R467, R469). -/
def thumbStoreEnd (rn : Reg) (new : Word) (s : State) : Outcome := .next (s.setX rn new).nextThumb

theorem thumbStoreEnd_eq {rn : Reg} (hn : rn ≠ 15) (new a : Word) (vs : List Word) (s : State) :
    thumbStoreEnd rn new (storeWords a vs s.begun) =
      .next { storeWords a vs s.begun with gpr := regsWith s rn new, pc := s.pc + 2 } := by
  unfold thumbStoreEnd
  rw [State.setX_reg hn, storeWords_frame]
  rfl

/-- The end of POP and LDMIA: R15 loaded is a branch that stays in Thumb state (R468, R470). -/
theorem thumbLoadFinish_eq (loaded : List (Reg × Word)) (s : State) :
    thumbLoadFinish loaded s = .next (s.setPc ((loadedPc loaded).elim (s.pc + 2) align2)) := by
  unfold thumbLoadFinish
  cases loadedPc loaded <;> rfl

/-- The registers of a block loaded, the base and the pc (R468, R470). -/
theorem thumbLoadBlock_eq {s : State} {l : List (Reg × Word) × State} (read : ∃ d, l.2 = { s.begun with draws := d })
    {rn : Reg} (hn : rn ≠ 15) (keeps : Bool) (new : Word) :
    thumbLoadFinish l.1 (if keeps then writeLoaded State.setX l.1 l.2 else (writeLoaded State.setX l.1 l.2).setX rn new) =
      .next { l.2 with
        gpr := if keeps then regsListed s.cpsr.mode l.1 s.gpr
          else (regsListed s.cpsr.mode l.1 s.gpr).set (physReg s.cpsr.mode rn) new
        pc := (loadedPc l.1).elim (s.pc + 2) align2 } := by
  obtain ⟨d, read⟩ := read
  rw [thumbLoadFinish_eq, writeLoaded_setX, State.setX_reg hn, read]
  cases keeps <;> rfl

section
variable (r : Bool) (rb : LowReg) (list : BitVec 8) {s : State}

/-- PUSH behind its gate: the case a strict machine stops, and the stores (R467). -/
theorem exec_tPush (marked : s.strict = false ∨ s.lastUsrBank = false) :
    exec (.tPush r list) s = unpredIf s.begun (regList list ++ (if r then [14] else [])).isEmpty .tEmptyList
      (orFault (storeList (s.x 13 - thumbBlockSize (regList list ++ (if r then [14] else [])))
        ((thumbMoved (regList list ++ (if r then [14] else []))).map fun k => if k = 15 then s.pc + 6 else s.x k) s.begun)
        (thumbStoreEnd 13 (s.x 13 - thumbBlockSize (regList list ++ (if r then [14] else []))))) := by
  have gate := thumbGate_run marked (regSP :: thumbList list (if r then some regLR else none)) fun s =>
    unpredIf s (thumbList list (if r then some regLR else none)).isEmpty .tEmptyList <|
      orFault (storeList (s.x regSP - thumbBlockSize (thumbList list (if r then some regLR else none)))
        ((thumbMoved (thumbList list (if r then some regLR else none))).map (thumbStored s)) s) fun s1 =>
        .next (s1.setX regSP (s.x regSP - thumbBlockSize (thumbList list (if r then some regLR else none)))).nextThumb
  refine gate.trans ?_
  rw [thumbList_extra]
  rfl

/-- The stores of a PUSH that nothing stops before them (R467). -/
theorem exec_tPush_run (free : s.strict = false ∨ (s.lastUsrBank = false ∧ (r = true ∨ list ≠ 0))) :
    exec (.tPush r list) s =
      orFault (storeList (s.x 13 - thumbBlockSize (regList list ++ (if r then [14] else [])))
        ((thumbMoved (regList list ++ (if r then [14] else []))).map fun k => if k = 15 then s.pc + 6 else s.x k) s.begun)
        (thumbStoreEnd 13 (s.x 13 - thumbBlockSize (regList list ++ (if r then [14] else [])))) := by
  rw [exec_tPush r list (free.imp_right And.left),
    (unpredIf_cases s.begun _ _ _).1 (free.imp_right fun ⟨_, listed⟩ => thumbList_nonempty listed 14)]

/-- POP behind its gate: the case a strict machine stops, and the loads (R468). -/
theorem exec_tPop (marked : s.strict = false ∨ s.lastUsrBank = false) :
    exec (.tPop r list) s = unpredIf s.begun (regList list ++ (if r then [15] else [])).isEmpty .tEmptyList
      (thumbLoadFinish (loadList (s.x 13) (thumbMoved (regList list ++ (if r then [15] else []))) s.begun).1
        ((writeLoaded State.setX (loadList (s.x 13) (thumbMoved (regList list ++ (if r then [15] else []))) s.begun).1
          (loadList (s.x 13) (thumbMoved (regList list ++ (if r then [15] else []))) s.begun).2).setX 13
          (s.x 13 + thumbBlockSize (regList list ++ (if r then [15] else []))))) := by
  have gate := thumbGate_run marked (regSP :: thumbList list (if r then some regPC else none)) fun s =>
    unpredIf s (thumbList list (if r then some regPC else none)).isEmpty .tEmptyList <|
      thumbLoadFinish (loadList (s.x regSP) (thumbMoved (thumbList list (if r then some regPC else none))) s).1
        ((writeLoaded State.setX (loadList (s.x regSP) (thumbMoved (thumbList list (if r then some regPC else none))) s).1
          (loadList (s.x regSP) (thumbMoved (thumbList list (if r then some regPC else none))) s).2).setX regSP
          (s.x regSP + thumbBlockSize (thumbList list (if r then some regPC else none))))
  refine gate.trans ?_
  rw [thumbList_extra]
  rfl

/-- The loads of a POP that nothing stops before them (R468). -/
theorem exec_tPop_run (free : s.strict = false ∨ (s.lastUsrBank = false ∧ (r = true ∨ list ≠ 0))) :
    exec (.tPop r list) s =
      thumbLoadFinish (loadList (s.x 13) (thumbMoved (regList list ++ (if r then [15] else []))) s.begun).1
        ((writeLoaded State.setX (loadList (s.x 13) (thumbMoved (regList list ++ (if r then [15] else []))) s.begun).1
          (loadList (s.x 13) (thumbMoved (regList list ++ (if r then [15] else []))) s.begun).2).setX 13
          (s.x 13 + thumbBlockSize (regList list ++ (if r then [15] else [])))) := by
  rw [exec_tPop r list (free.imp_right And.left),
    (unpredIf_cases s.begun _ _ _).1 (free.imp_right fun ⟨_, listed⟩ => thumbList_nonempty listed 15)]

/-- What STMIA stores for a register (R469). -/
theorem thumbStmValue_eq (new : Word) (k : Reg) :
    thumbStmValue rb list new s.begun k =
      if (list.getLsbD rb.toNat = true ∧ (regList list).head? ≠ some (low rb)) ∧ k = low rb then new
      else if k = 15 then s.pc + 6 else s.x k := by
  refine if_congr ?_ rfl rfl
  rw [Bool.and_eq_true, baseNotLowest_iff, beq_iff_eq, toNat_low]

/-- STMIA behind its gate: the two cases a strict machine stops, and the stores (R469). -/
theorem exec_tStmia :
    exec (.tStmia rb list) s = unpredIf s.begun (regList list).isEmpty .tEmptyList
      (unpredIf s.begun (baseNotLowest (low rb) list) .stmWbBaseNotLowest
        (orFault (storeList (s.x (low rb)) ((thumbMoved (regList list)).map
            (thumbStmValue rb list (s.x (low rb) + thumbBlockSize (regList list)) s.begun)) s.begun)
          (thumbStoreEnd (low rb) (s.x (low rb) + thumbBlockSize (regList list))))) := by
  have gate := thumbGate_of_low (low_of_mem_thumbList (rb := rb) (list := list)) s fun s =>
    unpredIf s (thumbList list none).isEmpty .tEmptyList <|
    unpredIf s (baseNotLowest (low rb) list) .stmWbBaseNotLowest <|
      orFault (storeList (s.x (low rb)) ((thumbMoved (thumbList list none)).map
        (thumbStmValue rb list (s.x (low rb) + thumbBlockSize (thumbList list none)) s)) s) fun s1 =>
        .next (s1.setX (low rb) (s.x (low rb) + thumbBlockSize (thumbList list none))).nextThumb
  refine gate.trans ?_
  rw [thumbList_none]
  rfl

theorem exec_tStmia_run
    (free : s.strict = false ∨ (list ≠ 0 ∧ ¬(list.getLsbD rb.toNat = true ∧ (regList list).head? ≠ some (low rb)))) :
    exec (.tStmia rb list) s =
      orFault (storeList (s.x (low rb)) ((thumbMoved (regList list)).map fun k =>
          if (list.getLsbD rb.toNat = true ∧ (regList list).head? ≠ some (low rb)) ∧ k = low rb
            then s.x (low rb) + thumbBlockSize (regList list)
          else if k = 15 then s.pc + 6 else s.x k) s.begun)
        (thumbStoreEnd (low rb) (s.x (low rb) + thumbBlockSize (regList list))) := by
  have listed : s.strict = false ∨ (regList list).isEmpty = false := free.imp_right fun ⟨listed, _⟩ => by
    rw [Bool.eq_false_iff, Ne, regList_isEmpty (by decide)]
    exact listed
  have lowest : s.strict = false ∨ baseNotLowest (low rb) list = false := free.imp_right fun ⟨_, lowest⟩ => by
    rw [Bool.eq_false_iff, Ne, baseNotLowest_iff, toNat_low]
    exact lowest
  have values := funext (thumbStmValue_eq rb list (s := s) (s.x (low rb) + thumbBlockSize (regList list)))
  rw [exec_tStmia, (unpredIf_cases s.begun _ _ _).1 listed, (unpredIf_cases s.begun _ _ _).1 lowest, values]

/-- LDMIA behind its gate: the case a strict machine stops, and the loads (R470). -/
theorem exec_tLdmia :
    exec (.tLdmia rb list) s = unpredIf s.begun (regList list).isEmpty .tEmptyList
      (thumbLoadFinish (loadList (s.x (low rb)) (thumbMoved (regList list)) s.begun).1
        (if inList (low rb) list then
          writeLoaded State.setX (loadList (s.x (low rb)) (thumbMoved (regList list)) s.begun).1
            (loadList (s.x (low rb)) (thumbMoved (regList list)) s.begun).2
        else (writeLoaded State.setX (loadList (s.x (low rb)) (thumbMoved (regList list)) s.begun).1
            (loadList (s.x (low rb)) (thumbMoved (regList list)) s.begun).2).setX (low rb)
          (s.x (low rb) + thumbBlockSize (regList list)))) := by
  have gate := thumbGate_of_low (low_of_mem_thumbList (rb := rb) (list := list)) s fun s =>
    unpredIf s (thumbList list none).isEmpty .tEmptyList <|
      thumbLoadFinish (loadList (s.x (low rb)) (thumbMoved (thumbList list none)) s).1
        (if inList (low rb) list then
          writeLoaded State.setX (loadList (s.x (low rb)) (thumbMoved (thumbList list none)) s).1
            (loadList (s.x (low rb)) (thumbMoved (thumbList list none)) s).2
        else (writeLoaded State.setX (loadList (s.x (low rb)) (thumbMoved (thumbList list none)) s).1
            (loadList (s.x (low rb)) (thumbMoved (thumbList list none)) s).2).setX (low rb)
          (s.x (low rb) + thumbBlockSize (thumbList list none)))
  refine gate.trans ?_
  rw [thumbList_none]
  rfl

end

/-- Settles O41: behind its gate and the case of an empty list each is its list and the new base. -/
theorem thumbBlockTransfers : Obligations.ThumbBlockTransfers := by
  unfold Obligations.ThumbBlockTransfers
  intro s
  refine ⟨fun r list free => ?_, fun r list free => ?_, fun rb list => ?_, fun rb list listed => ?_⟩
  · intro regs moved base vs runs
    rw [exec_tPush_run r list free, thumbBlockSize_eq, thumbMoved_eq, storeList_run runs]
    exact thumbStoreEnd_eq (by decide) _ _ _ s
  · intro regs l
    have read : ∃ d, l.2 = { s.begun with draws := d } := loadList_state _ _ _
    rw [exec_tPop_run r list free, thumbBlockSize_eq, thumbMoved_eq]
    refine (thumbLoadBlock_eq read (by decide) false _).trans ?_
    cases loadedPc l.1 <;> rfl
  · intro regs other new vs free runs
    have empty {α : Type} (x y : α) : (if regList list = [] then x else y) = if list = 0 then x else y :=
      if_congr (regList_eq_nil (by decide) list) rfl rfl
    rw [exec_tStmia_run rb list free, thumbBlockSize_eq, thumbMoved_eq, empty, empty, storeList_run runs]
    exact thumbStoreEnd_eq (low_ne rb) _ _ _ s
  · intro l g new
    have empty {α : Type} (x y : α) : (if regList list = [] then x else y) = if list = 0 then x else y :=
      if_congr (regList_eq_nil (by decide) list) rfl rfl
    have read : ∃ d, l.2 = { s.begun with draws := d } := loadList_state _ _ _
    have some : s.strict = false ∨ (regList list).isEmpty = false := listed.imp_right fun some => by
      rw [Bool.eq_false_iff, Ne, regList_isEmpty (by decide)]
      exact some
    rw [exec_tLdmia, (unpredIf_cases s.begun _ _ _).1 some, thumbBlockSize_eq, thumbMoved_eq, empty, empty, inList, toNat_low]
    refine (thumbLoadBlock_eq read (low_ne rb) _ _).trans ?_
    cases loadedPc l.1 <;> rfl

end Sys2Proof.Machine

/-!
PROOFS. The User-bank transfers and the hazard after them (spec/42_arm_loadstore.md section 3, rules R323, R325;
spec/70_reset_and_hazards.md section 3, rule R611): every instruction is one effect behind one gate, over the registers it
accesses.
-/

namespace Sys2Proof.Machine

-- LDM and STM of the User bank

section
variable {c : Cond} {p u w : Bool} {rn : Reg} {s : State}

theorem Mode.isUserBank_iff (m : Mode) : m.isUserBank = true ↔ m = .usr ∨ m = .sys := by cases m <;> decide

theorem exec_ldmUsr {list : BitVec 15} (h : Runs (.ldmUsr c p u w rn list) s) :
    exec (.ldmUsr c p u w rn list) s = blockStops rn list s.begun
      (stopIf w .ldmUsrWb (stopIf s.cpsr.mode.isUserBank .ldmUsrInUsr
        (loadBlockEnd (loadList (blockOf (s.x rn) p u list).start (blockOf (s.x rn) p u list).regs s.begun).1
          (writeLoaded State.setXUsr
            (loadList (blockOf (s.x rn) p u list).start (blockOf (s.x rn) p u list).regs s.begun).1
            (loadList (blockOf (s.x rn) p u list).start (blockOf (s.x rn) p u list).regs s.begun).2).usrBankDone))) :=
  h.armGate_eq rfl _ _

/-- The end of STM of the User bank (R325). -/
def storeUsrEnd (s : State) : Outcome := .next s.usrBankDone.nextArm

theorem exec_stmUsr {list : BitVec 16} (h : Runs (.stmUsr c p u w rn list) s) :
    exec (.stmUsr c p u w rn list) s = blockStops rn list s.begun
      (stopIf w .stmUsrWb (stopIf s.cpsr.mode.isUserBank .stmUsrInUsr
        (orFault (storeList (blockOf (s.x rn) p u list).start
            ((blockOf (s.x rn) p u list).regs.map fun r => if r = 15 then s.pc + 12 else s.xUsr r) s.begun)
          storeUsrEnd))) :=
  h.armGate_eq rfl _ _

/-- The stores of an STM of the User bank that nothing stops before them (R325). -/
theorem exec_stmUsr_run {list : BitVec 16} (h : Runs (.stmUsr c p u false rn list) s) (hn : rn ≠ 15)
    (listed : s.strict = false ∨ list ≠ 0) (usr : s.cpsr.mode ≠ .usr) (sys : s.cpsr.mode ≠ .sys) :
    exec (.stmUsr c p u false rn list) s = orFault (storeList (blockOf (s.x rn) p u list).start
      ((blockOf (s.x rn) p u list).regs.map fun r => if r = 15 then s.pc + 12 else s.xUsr r) s.begun) storeUsrEnd := by
  have bank : s.cpsr.mode.isUserBank = false := by
    rw [Bool.eq_false_iff, Ne, Mode.isUserBank_iff]
    exact fun h => h.elim usr sys
  rw [exec_stmUsr h, blockStops_run hn listed, stopIf_neg rfl, stopIf_neg bank]

theorem ldmUsr_results {list : BitVec 15} (h : Runs (.ldmUsr c p u w rn list) s) (hn : rn ≠ 15)
    (listed : s.strict = false ∨ list ≠ 0) :
    let b := blockOf (s.x rn) p u list
    let l := loadList b.start b.regs s.begun
    (w = false → s.cpsr.mode ≠ .usr → s.cpsr.mode ≠ .sys →
      exec (.ldmUsr c p u w rn list) s = .next
        { l.2 with
          gpr := regsListed .usr l.1 s.gpr
          pc := (loadedPc l.1).elim (s.pc + 4) align4
          lastUsrBank := true }) ∧
    (w = true → exec (.ldmUsr c p u w rn list) s = .fault (.unpredictable .ldmUsrWb)) ∧
    (w = false → s.cpsr.mode = .usr ∨ s.cpsr.mode = .sys →
      exec (.ldmUsr c p u w rn list) s = .fault (.unpredictable .ldmUsrInUsr)) := by
  intro b l
  rw [exec_ldmUsr h, blockStops_run hn listed]
  refine ⟨fun hw usr sys => ?_, fun hw => stopIf_pos hw _ _, fun hw bank => ?_⟩
  · have bank : s.cpsr.mode.isUserBank = false := by
      rw [Bool.eq_false_iff, Ne, Mode.isUserBank_iff]
      exact fun h => h.elim usr sys
    have read : ∃ d, l.2 = { s.begun with draws := d } := loadList_state _ _ _
    rw [stopIf_neg hw, stopIf_neg bank, writeLoaded_setXUsr]
    change loadBlockEnd l.1 (State.usrBankDone { l.2 with gpr := regsListed .usr l.1 l.2.gpr }) = _
    clear_value l
    obtain ⟨d, read⟩ := read
    rw [read]
    unfold loadBlockEnd
    cases loadedPc l.1 <;> rfl
  · rw [stopIf_neg hw, stopIf_pos ((Mode.isUserBank_iff _).mpr bank)]

theorem stmUsr_results {list : BitVec 16} (h : Runs (.stmUsr c p u w rn list) s) (hn : rn ≠ 15)
    (listed : s.strict = false ∨ list ≠ 0) :
    let b := blockOf (s.x rn) p u list
    let vs := b.regs.map fun r => if r = 15 then s.pc + 12 else s.xUsr r
    (w = false → s.cpsr.mode ≠ .usr → s.cpsr.mode ≠ .sys → StoresRun b.start vs s.begun →
      exec (.stmUsr c p u w rn list) s = .next
        { storeWords b.start vs s.begun with pc := s.pc + 4, lastUsrBank := true }) ∧
    (w = true → exec (.stmUsr c p u w rn list) s = .fault (.unpredictable .stmUsrWb)) ∧
    (w = false → s.cpsr.mode = .usr ∨ s.cpsr.mode = .sys →
      exec (.stmUsr c p u w rn list) s = .fault (.unpredictable .stmUsrInUsr)) := by
  intro b vs
  refine ⟨fun hw usr sys runs => ?_, fun hw => ?_, fun hw bank => ?_⟩
  · subst hw
    rw [exec_stmUsr_run h hn listed usr sys, storeList_run runs]
    show storeUsrEnd (storeWords b.start vs s.begun) = _
    unfold storeUsrEnd
    rw [storeWords_frame]
    rfl
  · rw [exec_stmUsr h, blockStops_run hn listed, stopIf_pos hw]
  · rw [exec_stmUsr h, blockStops_run hn listed, stopIf_neg hw, stopIf_pos ((Mode.isUserBank_iff _).mpr bank)]

end

-- The gate of every instruction

/-- The gate an instruction's effect stands behind: its condition, its should-be fields and the hazard (R200, R21, R611). -/
def gate (i : Instr) (regs : List Reg) (s : State) (body : State → Outcome) : Outcome :=
  match condOf i with
  | some c => armGate c (shouldBeHeld i) regs s body
  | none => unpredIf s (!shouldBeHeld i) .sbzSbo (thumbGate regs s body)

section
variable {c : Cond} {sb : Bool} {regs : List Reg} {s : State} {body : State → Outcome}

/-- A gate asks for an effect in the state it begins in only. -/
theorem armGate_congr {other : State → Outcome} (same : body s.begun = other s.begun) :
    armGate c sb regs s body = armGate c sb regs s other := by
  unfold armGate afterHazard
  rw [same]

/-- The registers an instruction accesses do not depend on a transfer just before. -/
theorem accesses_begun (i : Instr) (s : State) : accesses i s.begun = accesses i s := rfl

/-- What a coprocessor instruction does, by CP_MODE (R360). -/
def coprocessorEffect (s : State) : Outcome :=
  match s.params.cp with
  | .nop => .next s.nextArm
  | .undefined => raiseArm .undefined s

/-- A coprocessor instruction is one effect behind its gate (R360). -/
theorem coprocessor_gate (c : Cond) (s : State) :
    coprocessor c s =
      armGate c true (if s.params.cp = .undefined ∧ s.cpsr.mode = .und then [14] else []) s coprocessorEffect := by
  unfold coprocessor
  cases h : s.params.cp with
  | nop =>
    refine armGate_congr ?_
    unfold coprocessorEffect
    rw [show s.begun.params.cp = .nop from h]
  | undefined =>
    have regs : (if s.cpsr.mode = .und then [14] else [] : List Reg) =
        if CpMode.undefined = CpMode.undefined ∧ s.cpsr.mode = .und then [14] else [] := if_congr (by simp) rfl rfl
    rw [← regs]
    refine armGate_congr ?_
    unfold coprocessorEffect
    rw [show s.begun.params.cp = .undefined from h]

end

/-- Every instruction is one effect behind its gate, over the registers it accesses (R611). -/
theorem exec_gate (i : Instr) : ∃ body : State → Outcome, ∀ s, exec i s = gate i (accesses i s) s body := by
  cases i with
  | ldc | stc | cdp | mcr | mrc => exact ⟨_, fun s => coprocessor_gate _ s⟩
  | tPush r list => cases r <;> exact ⟨_, fun s => rfl⟩
  | tPop r list => cases r <;> exact ⟨_, fun s => rfl⟩
  | tStmia rb list =>
    have regs : accesses (.tStmia rb list) = fun _ => low rb :: thumbList list none := by rw [thumbList_none]; rfl
    rw [regs]
    exact ⟨_, fun s => rfl⟩
  | tLdmia rb list =>
    have regs : accesses (.tLdmia rb list) = fun _ => low rb :: thumbList list none := by rw [thumbList_none]; rfl
    rw [regs]
    exact ⟨_, fun s => rfl⟩
  | _ => exact ⟨_, fun s => rfl⟩

-- The hazard

section
variable {i : Instr} {regs : List Reg} {s : State} {body : State → Outcome}

/-- The hazard of R611, by the bank of each register. -/
theorem usrBankHazard_iff :
    usrBankHazard regs s = true ↔
      s.lastUsrBank = true ∧ s.strict = true ∧ ∃ r ∈ regs, r ≠ 15 ∧ bankOf s.cpsr.mode r ≠ .usr := by
  unfold usrBankHazard
  rw [Bool.and_eq_true, Bool.and_eq_true, List.any_eq_true, and_assoc]
  simp only [banked_iff]

/-- An instruction in the way of the hazard is stopped by it (R611). -/
theorem gate_stop (wf : i.WellFormed) (passes : ∀ c, condOf i = some c → condPassed c s.cpsr = true)
    (hazard : usrBankHazard regs s = true) : gate i regs s body = .fault (.hazard .usrBankNext) := by
  have held := shouldBeHeld_of_wellFormed wf
  unfold gate
  rw [held]
  cases h : condOf i with
  | some c => exact armGate_stop (passes c h) hazard body
  | none => exact (unpredIf_neg rfl _ _).trans (afterHazard_stop hazard body)

/-- An ARM instruction out of the way of the hazard runs as though no User-bank transfer came before it (R611). -/
theorem armGate_begun {c : Cond} {sb : Bool} (clear : usrBankHazard regs s = false ∨ condPassed c s.cpsr = false) :
    armGate c sb regs s body = armGate c sb regs s.begun body := by
  unfold armGate
  by_cases nv : c = .nv
  · rw [if_pos nv, if_pos nv]
    rfl
  · rw [if_neg nv, if_neg nv]
    cases passed : condPassed c s.cpsr with
    | false =>
      have same : condPassed c s.begun.cpsr = false := passed
      rw [same]
      rfl
    | true =>
      have same : condPassed c s.begun.cpsr = true := passed
      have noHazard := clear.resolve_right (by rw [passed]; exact Bool.noConfusion)
      rw [same, afterHazard_unmarked noHazard]
      rfl

/-- An instruction out of the way of the hazard runs as though no User-bank transfer came before it (R611). -/
theorem gate_begun (clear : usrBankHazard regs s = false ∨ ∃ c, condOf i = some c ∧ condPassed c s.cpsr = false) :
    gate i regs s body = gate i regs s.begun body := by
  unfold gate
  cases h : condOf i with
  | some c =>
    refine armGate_begun (clear.imp_right ?_)
    rintro ⟨d, hd, failed⟩
    rw [h] at hd
    rwa [Option.some.inj hd]
  | none =>
    have noHazard := clear.resolve_right (by
      rintro ⟨d, hd, -⟩
      rw [h] at hd
      cases hd)
    exact congrArg (unpredIf s _ _) (afterHazard_unmarked noHazard body)

theorem exec_usrBankNext (strict : s.strict = true) (marked : s.lastUsrBank = true) (wf : i.WellFormed)
    (passes : ∀ c, condOf i = some c → condPassed c s.cpsr = true)
    (access : ∃ r ∈ accesses i s, r ≠ 15 ∧ bankOf s.cpsr.mode r ≠ .usr) :
    exec i s = .fault (.hazard .usrBankNext) := by
  obtain ⟨body, effect⟩ := exec_gate i
  rw [effect, gate_stop wf passes (usrBankHazard_iff.mpr ⟨marked, strict, access⟩)]

theorem exec_begun
    (clear : s.strict = false ∨ (¬∃ r ∈ accesses i s, r ≠ 15 ∧ bankOf s.cpsr.mode r ≠ .usr) ∨
      ∃ c, condOf i = some c ∧ condPassed c s.cpsr = false) :
    exec i s = exec i s.begun := by
  obtain ⟨body, effect⟩ := exec_gate i
  rw [effect, effect, accesses_begun]
  refine gate_begun ?_
  rcases clear with lenient | noAccess | failed
  · exact .inl (Bool.eq_false_iff.mpr fun h => Bool.noConfusion (lenient.symm.trans (usrBankHazard_iff.mp h).2.1))
  · exact .inl (Bool.eq_false_iff.mpr fun h => noAccess (usrBankHazard_iff.mp h).2.2)
  · exact .inr failed

end

-- Words of no row

/-- A word of no row accesses R14 of its own mode where it is the one Undefined enters (R508, R611). -/
theorem usrBankHazard_undefined (s : State) :
    usrBankHazard (entryRegs .undefined s) s = true ↔ s.lastUsrBank = true ∧ s.strict = true ∧ s.cpsr.mode = .und := by
  rw [usrBankHazard_iff]
  refine and_congr_right fun _ => and_congr_right fun _ => ?_
  unfold entryRegs
  by_cases und : s.cpsr.mode = .und
  · rw [if_pos (show s.cpsr.mode = Exc.undefined.mode from und), und]
    decide
  · rw [if_neg (show ¬s.cpsr.mode = Exc.undefined.mode from und)]
    simp [und]

theorem undecoded_stop {code : Code} {s : State} (strict : s.strict = true) (marked : s.lastUsrBank = true)
    (und : s.cpsr.mode = .und) (passes : ∀ w : Word, code = .arm w → condPassed (condAt w 28) s.cpsr = true) :
    undecoded code s = .fault (.hazard .usrBankNext) := by
  have hazard := (usrBankHazard_undefined s).mpr ⟨marked, strict, und⟩
  cases code with
  | arm w => exact armGate_stop (passes w rfl) hazard _
  | thumb h => exact afterHazard_stop hazard _

theorem undecoded_begun {code : Code} {s : State}
    (clear : s.strict = false ∨ s.cpsr.mode ≠ .und ∨ ¬∀ w : Word, code = .arm w → condPassed (condAt w 28) s.cpsr = true) :
    undecoded code s = undecoded code s.begun := by
  have noHazard (h : s.strict = false ∨ s.cpsr.mode ≠ .und) : usrBankHazard (entryRegs .undefined s) s = false := by
    rw [Bool.eq_false_iff, Ne, usrBankHazard_undefined]
    rintro ⟨-, strict, und⟩
    exact h.elim (fun lenient => Bool.noConfusion (lenient.symm.trans strict)) (· und)
  cases code with
  | arm w =>
    refine armGate_begun ?_
    rcases clear with lenient | other | fails
    · exact .inl (noHazard (.inl lenient))
    · exact .inl (noHazard (.inr other))
    · refine .inr (Bool.eq_false_iff.mpr fun passed => fails fun w' hw => ?_)
      rwa [← Code.arm.inj hw]
  | thumb h =>
    refine afterHazard_unmarked (noHazard ?_) _
    rcases clear with lenient | other | fails
    · exact .inl lenient
    · exact .inr other
    · exact absurd (fun w hw => Code.noConfusion hw) fails

/-- MOV of a register, once nothing hinders it. -/
theorem exec_mov_begun {rd rm : Reg} (s : State) (hd : rd ≠ 15) (hm : rm ≠ 15) :
    exec (.movRsi .al false 0 rd 0 .lsl rm) s.begun = .next (after s (regsWith s rd (s.x rm)) s.cpsr (s.pc + 4)) := by
  have runs : Runs (dpRsiInstr .mov .al false 0 0 rd 0 .lsl rm) s.begun :=
    ⟨fun c hc => Option.some.inj hc ▸ rfl, .inr ⟨rfl, rfl⟩⟩
  have operand : s.armX rm = s.x rm := if_neg hm
  refine (exec_dpRsi runs).trans ((dpFinish_reg fun _ => hd).trans ?_)
  show Host.Outcome.next (after s (regsWith s rd (s.armX rm)) s.cpsr (s.pc + 4)) = _
  rw [operand]

/-- Settles O28: the two transfers, and the hazard of R611 at the one gate of every instruction. -/
theorem userBankTransfers : Obligations.UserBankTransfers := by
  unfold Obligations.UserBankTransfers
  refine ⟨fun c p u w rn s hn => ⟨fun list h listed => ?_, fun list h listed => stmUsr_results h hn listed⟩,
    fun rd rm s hd hm marked => ?_, fun i s marked => ?_, fun code s marked => ?_⟩
  · obtain ⟨loads, wb, bank⟩ := ldmUsr_results h hn listed
    refine ⟨fun hw usr sys => (loads hw usr sys).trans ?_, wb, bank⟩
    cases loadedPc (loadList (blockOf (s.x rn) p u list).start (blockOf (s.x rn) p u list).regs s.begun).1 <;> rfl
  · intro i
    have banks : (∃ r ∈ accesses i s, r ≠ 15 ∧ bankOf s.cpsr.mode r ≠ .usr) ↔
        bankOf s.cpsr.mode rd ≠ .usr ∨ bankOf s.cpsr.mode rm ≠ .usr := by
      have listed : accesses i s = [rd, rm] := rfl
      rw [listed]
      simp only [List.mem_cons, List.not_mem_nil, or_false, exists_eq_or_imp, exists_eq_left]
      exact or_congr (and_iff_right hd) (and_iff_right hm)
    refine ⟨fun strict access => exec_usrBankNext strict marked rfl (fun c hc => Option.some.inj hc ▸ rfl) (banks.mpr access),
      fun free => (exec_begun (free.imp_right fun ⟨freeD, freeM⟩ => .inl ?_)).trans (exec_mov_begun s hd hm)⟩
    rw [banks]
    exact fun h => h.elim (· freeD) (· freeM)
  · exact ⟨fun strict wf passes access => exec_usrBankNext strict marked wf passes access, exec_begun⟩
  · exact ⟨fun strict und passes => undecoded_stop strict marked und passes, undecoded_begun⟩

end Sys2Proof.Machine

/-!
PROOFS. The stops of a strict machine and of a store (spec/00_scope.md rule R20; spec/60_exceptions.md section 5, rules R540,
R541; spec/70_reset_and_hazards.md section 3, rule R612).
-/

namespace Sys2Proof.Machine

-- What stops a store

section
variable {a v : Word} {w : Width} {s : State}

theorem cpuWrite_prefetch (strict : s.strict = true) (hits : hitsPrefetch a w s = true) :
    cpuWrite a w v s = .error (.hazard .smcPrefetch) := by
  unfold cpuWrite
  rw [strict, hits]
  rfl

/-- The cases of R541 are the only two a channel has. -/
theorem DmaChannel.case_eq_some {c : DmaChannel} {n : Fin 4} {strict : Bool} {k : Unpredictable}
    (h : c.case n strict = some k) : k = .dmaDrq ∨ k = .dmaSrcCtl3 := by
  unfold DmaChannel.case at h
  split at h
  · exact .inl (Option.some.inj h).symm
  · split at h
    · exact .inr (Option.some.inj h).symm
    · cases h

theorem DmaChannel.case_isSome {c : DmaChannel} {n : Fin 4} {strict : Bool} (armed : c.armed = true)
    (field : (n = 3 ∧ c.ctl.getLsbD 11 = true) ∨ (strict = true ∧ c.srcCtl = 3)) : c.case n strict ≠ none := by
  unfold DmaChannel.case
  rcases field with ⟨rfl, drq⟩ | ⟨rfl, control⟩
  · simp [armed, drq]
  · split
    · exact Option.some_ne_none _
    · simp [armed, control]

/-- A store that leaves an armed channel it reached with a field of R541 is stopped. -/
theorem cpuWrite_dmaCase (clear : s.strict = false ∨ hitsPrefetch a w s = false) {n : Fin 4}
    (touches : touchesDmaCtl s.bus n a w = true) (armed : (busWrite a w v s).dev.dma[n].armed = true)
    (field : (n = 3 ∧ (busWrite a w v s).dev.dma[n].ctl.getLsbD 11 = true) ∨
      (s.strict = true ∧ (busWrite a w v s).dev.dma[n].srcCtl = 3)) :
    ∃ case, (case = .dmaDrq ∨ case = .dmaSrcCtl3) ∧ cpuWrite a w v s = .error (.unpredictable case) := by
  have noHazard : (s.strict && hitsPrefetch a w s) = false := by
    rcases clear with h | h <;> simp [h]
  have params : (busWrite a w v s).bus = s.bus ∧ (busWrite a w v s).strict = s.strict := by
    rw [busWrite_frame]
    exact ⟨rfl, rfl⟩
  have here : (if touchesDmaCtl (busWrite a w v s).bus n a w
      then (busWrite a w v s).dev.dma[n].case n (busWrite a w v s).strict else none) ≠ none := by
    rw [params.1, params.2, if_pos touches]
    exact DmaChannel.case_isSome armed field
  unfold cpuWrite
  rw [noHazard]
  cases found : dmaCaseOf a w (busWrite a w v s) with
  | none => exact absurd (List.findSome?_eq_none_iff.mp found n (by fin_cases n <;> simp)) here
  | some k =>
    obtain ⟨m, -, hm⟩ := List.exists_of_findSome?_eq_some found
    split at hm
    · exact ⟨k, DmaChannel.case_eq_some hm, by dsimp only; rw [found]; rfl⟩
    · cases hm

end

-- The prefetch window

/-- The window of R612, byte by byte. -/
theorem mem_prefetchWindow {s : State} {n : Nat} : n ∈ prefetchWindow s ↔
    ∃ k < (if s.cpsr.t then 4 else 8), n = cell s.bus (s.pc + (if s.cpsr.t then 2 else 4) + BitVec.ofNat 32 k) := by
  have shift (o k : Nat) : BitVec.ofNat 32 (o + k) = BitVec.ofNat 32 o + BitVec.ofNat 32 k := BitVec.ofNat_add ..
  have slots (o m : Nat) : n ∈ ((List.range m).map (o + ·)).map (fun k => cell s.bus (s.pc + BitVec.ofNat 32 k)) ↔
      ∃ k < m, n = cell s.bus (s.pc + BitVec.ofNat 32 o + BitVec.ofNat 32 k) := by
    simp only [List.map_map, List.mem_map, List.mem_range, Function.comp_apply, shift, ← BitVec.add_assoc, eq_comm]
  unfold prefetchWindow
  cases s.cpsr.t
  · exact slots 4 8
  · exact slots 2 4

/-- A store that is not doubled reaches the window where one of its bytes is in it (R612, log entry 27). -/
theorem hitsPrefetch_iff {a : Word} {w : Width} {s : State} (single : w = .byte → byteWriteAt a s ≠ .both) :
    hitsPrefetch a w s = true ↔ ∃ x < w.bytes, cell s.bus (a + BitVec.ofNat 32 x) ∈ prefetchWindow s := by
  have first : a + BitVec.ofNat 32 0 = a := BitVec.add_zero a
  have bytes (m : Nat) : ((List.range m).map fun x => cell s.bus (a + BitVec.ofNat 32 x)).any (prefetchWindow s).contains = true ↔
      ∃ x < m, cell s.bus (a + BitVec.ofNat 32 x) ∈ prefetchWindow s := by
    simp only [List.any_map, List.any_eq_true, List.mem_range, Function.comp_apply, List.contains_iff_mem]
  cases w with
  | byte =>
    have one : hitsPrefetch a .byte s = (prefetchWindow s).contains (cell s.bus a) := by
      unfold hitsPrefetch
      cases h : byteWriteAt a s with
      | both => exact absurd h (single rfl)
      | single => rfl
      | ignored => rfl
    rw [one, List.contains_iff_mem]
    refine ⟨fun h => ⟨0, Nat.one_pos, by rwa [first]⟩, fun ⟨x, hx, h⟩ => ?_⟩
    obtain rfl : x = 0 := Nat.lt_one_iff.mp hx
    rwa [first] at h
  | half =>
    have two : hitsPrefetch a .half s = ((List.range 2).map fun x => cell s.bus (a + BitVec.ofNat 32 x)).any
        (prefetchWindow s).contains := by
      show [cell s.bus a, cell s.bus (a + 1)].any _ = [cell s.bus (a + BitVec.ofNat 32 0), cell s.bus (a + 1)].any _
      rw [first]
    rw [two]
    exact bytes 2
  | word =>
    have four : hitsPrefetch a .word s = ((List.range 4).map fun x => cell s.bus (a + BitVec.ofNat 32 x)).any
        (prefetchWindow s).contains := by
      show [cell s.bus a, cell s.bus (a + 1), cell s.bus (a + 2), cell s.bus (a + 3)].any _ =
        [cell s.bus (a + BitVec.ofNat 32 0), cell s.bus (a + 1), cell s.bus (a + 2), cell s.bus (a + 3)].any _
      rw [first]
    rw [four]
    exact bytes 4

-- The DMA control registers

theorem region_io_iff (a : Word) : region Bus.gba a = .io ↔ 0x04000000 ≤ a.toNat ∧ a.toNat ≤ 0x040003FF := by
  refine ⟨range_of_region_gba (r := ⟨0x04000000, 0x040003FF, .io, 0⟩) (by decide) (by decide), fun ⟨low, high⟩ => ?_⟩
  rw [region_gba_eq, if_neg (by omega), if_neg (by omega), if_neg (by omega), if_neg (by omega), if_pos high]

theorem ioRegAt_dmaCntH : ∀ (n : Fin 4) (k : Fin 0x400),
    (ioRegAt k.val).1 = .dmaCntH n ↔ k.val = 0xBA + 12 * n.val ∨ k.val = 0xBB + 12 * n.val := by decide +kernel

/-- The two bytes of `DMAnCNT_H` (R540). -/
theorem reachesDmaCtl_iff (n : Fin 4) (a : Word) :
    reachesDmaCtl Bus.gba n a = true ↔ a.toNat = 0x040000BA + 12 * n.val ∨ a.toNat = 0x040000BB + 12 * n.val := by
  unfold reachesDmaCtl
  rw [Bool.and_eq_true, beq_iff_eq, beq_iff_eq]
  have small : n.val < 4 := n.isLt
  by_cases io : region Bus.gba a = .io
  · have range := (region_io_iff a).mp io
    have place : regionOffset Bus.gba a = a.toNat % 0x400 := by
      rw [regionOffset_gba (by rw [io]; decide), io]
      rfl
    have reg := ioRegAt_dmaCntH n ⟨a.toNat % 0x400, Nat.mod_lt _ (by decide)⟩
    dsimp only at reg
    rw [place, reg]
    constructor
    · rintro ⟨-, h⟩
      omega
    · intro h
      exact ⟨io, by omega⟩
  · have range := mt (region_io_iff a).mpr io
    constructor
    · exact fun h => absurd h.1 io
    · intro h
      exact absurd (by omega) range

/-- An access that does not wrap around reaches `DMAnCNT_H` where the two overlap (R540). -/
theorem touchesDmaCtl_iff (n : Fin 4) {a : Word} {w : Width} (noWrap : a.toNat + w.bytes ≤ 2 ^ 32) :
    touchesDmaCtl Bus.gba n a w = true ↔ a.toNat < 0x040000BC + 12 * n.val ∧ 0x040000BA + 12 * n.val < a.toNat + w.bytes := by
  unfold touchesDmaCtl
  rw [List.any_eq_true]
  have value {k : Nat} (hk : k < w.bytes) : (a + BitVec.ofNat 32 k).toNat = a.toNat + k := by
    rw [BitVec.toNat_add, BitVec.toNat_ofNat]
    omega
  constructor
  · rintro ⟨k, hk, reaches⟩
    rw [reachesDmaCtl_iff, value (List.mem_range.mp hk)] at reaches
    have := List.mem_range.mp hk
    omega
  · rintro ⟨before, after⟩
    have size : 1 ≤ w.bytes := by cases w <;> decide
    refine ⟨0x040000BA + 12 * n.val - a.toNat, List.mem_range.mpr (by omega), ?_⟩
    rw [reachesDmaCtl_iff, value (by omega)]
    omega

/-!
PROOFS. Every instruction that a strict machine stops for a case with an ARM7TDMI behaviour, and every store that stops where
its write does (spec/00_scope.md rule R20).
-/

-- Data processing

section
variable {op : DpOp} {rn rd rm : Reg} {n : Word} {b : Shifted} {s : State}

theorem regShiftPc_iff :
    regShiftPc op rn rd rm = true ↔ (op.readsRn = true ∧ rn = 15) ∨ (op.writesRd = true ∧ rd = 15) ∨ rm = 15 := by
  simp [regShiftPc, or_assoc]

/-- A strict machine stops a branch to an unaligned address (R213). -/
theorem dpFinish_jump_stop (strict : s.strict = true) (hw : op.writesRd = true)
    (unaligned : align4 (op.apply n b s.cpsr).value ≠ (op.apply n b s.cpsr).value) :
    dpFinish op false 15 n b s.begun = .fault (.unpredictable .armPcUnaligned) := by
  have jump : dpFinish op false 15 n b s.begun = dpJump (op.apply n b s.cpsr).value s.begun := by simp [dpFinish, hw]
  rw [jump]
  exact unpredIf_pos strict (by simpa using unaligned.symm) _ _

/-- A strict machine stops an exception return to an unaligned address (R213, R511). -/
theorem dpFinish_return_stop (strict : s.strict = true) (hw : op.writesRd = true) {p : Psr} {q : Cpsr}
    (hp : s.spsrOf s.cpsr.mode = some p) (hq : p.restored = some q)
    (unaligned : alignFor q.t (op.apply n b s.cpsr).value ≠ (op.apply n b s.cpsr).value) :
    dpFinish op true 15 n b s.begun = .fault (.unpredictable .retPcUnaligned) := by
  have ret : dpFinish op true 15 n b s.begun = dpReturn (op.apply n b s.cpsr).value s.begun := by simp [dpFinish, hw]
  have restored : returnFromException .dpSPcNospsr (op.apply n b s.cpsr).value s.begun = _ :=
    returnFromException_eq (s := s.begun) hp hq
  rw [ret, dpReturn, restored]
  exact unpredIf_pos strict (by simpa using unaligned) _ _

end

-- Single transfers

section
variable {a : Address} {rn rd : Reg} {s : State}

/-- The halfword and signed transfers that a strict machine stops (R310 to R312, R314). -/
theorem halves_stop (strict : s.strict = true) :
    (rd = 15 → storeHalf a rn rd s.begun = .fault (.unpredictable .strhPc)) ∧
    (rd ≠ 15 →
      (a.addr.getLsbD 0 = true → storeHalf a rn rd s.begun = .fault (.unpredictable .strhUnaligned)) ∧
      (a.addr.getLsbD 0 = false → a.writeBack = true → rn = rd →
        storeHalf a rn rd s.begun = .fault (.unpredictable .strWbRd)) ∧
      (a.addr.getLsbD 0 = true → loadHalf a rn rd s.begun = .fault (.unpredictable .ldrhUnaligned)) ∧
      (a.addr.getLsbD 0 = false → a.writeBack = true → rn = rd →
        loadHalf a rn rd s.begun = .fault (.unpredictable .ldrWbRd)) ∧
      (a.writeBack = true → rn = rd → loadSignedByte a rn rd s.begun = .fault (.unpredictable .ldrWbRd)) ∧
      (a.addr.getLsbD 0 = true → loadSignedHalf a rn rd s.begun = .fault (.unpredictable .ldrshUnaligned)) ∧
      (a.addr.getLsbD 0 = false → a.writeBack = true → rn = rd →
        loadSignedHalf a rn rd s.begun = .fault (.unpredictable .ldrWbRd))) := by
  refine ⟨fun hd => unpredIf_pos strict (by simpa using hd) _ _, fun hd => ⟨fun odd => ?_, fun even wb same => ?_, fun odd => ?_,
    fun even wb same => ?_, fun wb same => ?_, fun odd => ?_, fun even wb same => ?_⟩⟩
  · exact (unpredIf_neg (by simpa using hd) _ _).trans (unpredIf_pos strict odd _ _)
  · subst same
    exact (unpredIf_neg (by simpa using hd) _ _).trans ((unpredIf_neg even _ _).trans (storeFinish_stop strict wb _))
  · exact (loadHalf_finish hd _).trans (unpredIf_pos strict odd _ _)
  · subst same
    exact (loadHalf_finish hd _).trans ((unpredIf_neg even _ _).trans (loadFinish_stop strict wb (loadHalfRotated_state _ _)))
  · subst same
    exact (loadSignedByte_finish hd _).trans (loadFinish_stop strict wb (loadByteSigned_state _ _))
  · exact (loadSignedHalf_finish hd _).trans (unpredIf_pos strict odd _ _)
  · subst same
    exact (loadSignedHalf_finish hd _).trans
      ((unpredIf_neg even _ _).trans (loadFinish_stop strict wb (loadHalfSigned_state _ _)))

end

section
variable (c : Cond) (p u w : Bool) (rd rm : Reg) {s : State}

section
variable (imm12 : BitVec 12) (amt : BitVec 5) (sh : Shift)

/-- A strict machine stops a word or byte load that writes back to Rd (R300). -/
theorem single_ldrWbRd (strict : s.strict = true) (wb : p = false ∨ w = true) (hd : rd ≠ 15) (hm : rm ≠ 15) :
    ∀ i ∈ [ldrImmInstr c p u w rd rd imm12, ldrRegInstr c p u w rd rd amt sh rm, ldrbImmInstr c p u w rd rd imm12,
      ldrbRegInstr c p u w rd rd amt sh rm], Runs i s → exec i s = .fault (.unpredictable .ldrWbRd) := by
  simp only [List.mem_cons, List.not_mem_nil, or_false, forall_eq_or_imp, forall_eq]
  have back {b o : Word} : (addressOf b o p u w).writeBack = true := addressOf_writeBack_iff.mpr wb
  have word {a : Address} (ha : a.writeBack = true) :
      ldrAccess p w a rd rd s.begun = .fault (.unpredictable .ldrWbRd) :=
    (ldrAccess_finish p w hd _).trans (loadFinish_stop strict ha (loadRotated_state _ _))
  have byte {a : Address} (ha : a.writeBack = true) : loadByte a rd rd s.begun = .fault (.unpredictable .ldrWbRd) :=
    (loadByte_finish hd _).trans (loadFinish_stop strict ha (cpuRead_state _ _ _))
  exact ⟨fun h => ((exec_ldrImm h).trans (addressStops_imm fun _ => hd)).trans (word back),
    fun h => ((exec_ldrReg h).trans (addressStops_reg (fun _ => hd) hm)).trans (word back),
    fun h => ((exec_ldrbImm h).trans (addressStops_imm fun _ => hd)).trans (byte back),
    fun h => ((exec_ldrbReg h).trans (addressStops_reg (fun _ => hd) hm)).trans (byte back)⟩

/-- A strict machine stops a word or byte store that writes back to Rd (R300). -/
theorem single_strWbRd (strict : s.strict = true) (wb : p = false ∨ w = true) (hd : rd ≠ 15) (hm : rm ≠ 15) :
    ∀ i ∈ [strImmInstr c p u w rd rd imm12, strRegInstr c p u w rd rd amt sh rm, strbImmInstr c p u w rd rd imm12,
      strbRegInstr c p u w rd rd amt sh rm], Runs i s → exec i s = .fault (.unpredictable .strWbRd) := by
  simp only [List.mem_cons, List.not_mem_nil, or_false, forall_eq_or_imp, forall_eq]
  have back {b o : Word} : (addressOf b o p u w).writeBack = true := addressOf_writeBack_iff.mpr wb
  have word {a : Address} (ha : a.writeBack = true) : storeWord a rd rd s.begun = .fault (.unpredictable .strWbRd) :=
    storeFinish_stop strict ha _
  have byte {a : Address} (ha : a.writeBack = true) : storeByte a rd rd s.begun = .fault (.unpredictable .strWbRd) :=
    (stopIf_neg (by simpa using hd) _ _).trans (storeFinish_stop strict ha _)
  exact ⟨fun h => ((exec_strImm h).trans (addressStops_imm fun _ => hd)).trans (word back),
    fun h => ((exec_strReg h).trans (addressStops_reg (fun _ => hd) hm)).trans (word back),
    fun h => ((exec_strbImm h).trans (addressStops_imm fun _ => hd)).trans (byte back),
    fun h => ((exec_strbReg h).trans (addressStops_reg (fun _ => hd) hm)).trans (byte back)⟩

end

end

-- The transfers behind a gate and corners that they pass

section
variable {c : Cond} {p u w : Bool} {rn rd rm : Reg} {s : State} {access : Address → Reg → Reg → State → Outcome} {i : Instr}

theorem halfImm_access {immH immL : BitVec 4} (indexed : p = true ∨ w = false) (base : p = w → rn ≠ 15) (h : Runs i s)
    (hc : condOf i = some c) (held : shouldBeHeld i = true) :
    halfImm access c p u w rn rd immH immL s =
      access (addressOf (s.armX rn) (offsetHalf immH immL) p u w) rn rd s.begun :=
  (halfImm_run h hc held).trans ((halfStops_run indexed).trans
    (addressStops_imm fun back => base ((addressOf_writeBack_half indexed).mp back)))

theorem halfReg_access {sbz : BitVec 4} (indexed : p = true ∨ w = false) (base : p = w → rn ≠ 15) (hm : rm ≠ 15) (h : Runs i s)
    (hc : condOf i = some c) (held : shouldBeHeld i = shouldBeZero sbz) :
    halfReg access c p u w rn rd sbz rm s = access (addressOf (s.armX rn) (s.x rm) p u w) rn rd s.begun := by
  have offset : s.x rm = s.armX rm := (if_neg hm).symm
  rw [offset]
  exact (halfReg_run h hc held).trans ((halfStops_run indexed).trans
    (addressStops_reg (fun back => base ((addressOf_writeBack_half indexed).mp back)) hm))

end

-- Block transfers

section
variable {c : Cond} {p u w : Bool} {rn : Reg} {s : State}

theorem blockStops_empty {n : Nat} (strict : s.strict = true) (hn : rn ≠ 15) (e : Outcome) :
    blockStops rn (0 : BitVec n) s.begun e = .fault (.unpredictable .ldmStmEmpty) :=
  (stopIf_neg (by simpa using hn) _ _).trans (unpredIf_pos strict (beq_self_eq_true _) _ _)

theorem block_empty (strict : s.strict = true) (hn : rn ≠ 15) :
    ∀ i ∈ [.ldm c p u w rn 0, .stm c p u w rn 0, .ldmUsr c p u w rn 0, .stmUsr c p u w rn 0],
      Runs i s → exec i s = .fault (.unpredictable .ldmStmEmpty) := by
  simp only [List.mem_cons, List.not_mem_nil, or_false, forall_eq_or_imp, forall_eq]
  exact ⟨fun h => (exec_ldm h).trans (blockStops_empty strict hn _), fun h => (exec_stm h).trans (blockStops_empty strict hn _),
    fun h => (exec_ldmUsr h).trans (blockStops_empty strict hn _),
    fun h => (exec_stmUsr h).trans (blockStops_empty strict hn _)⟩

/-- A list with a register in it is not empty. -/
theorem ne_zero_of_listed {n k : Nat} {list : BitVec n} (listed : list.getLsbD k = true) : list ≠ 0 := by
  rintro rfl
  exact Bool.noConfusion (BitVec.getLsbD_zero.symm.trans listed)

theorem ldm_wbBaseInList {list : BitVec 16} (strict : s.strict = true) (hn : rn ≠ 15) (listed : list.getLsbD rn.toNat = true)
    (h : Runs (.ldm c p u true rn list) s) : exec (.ldm c p u true rn list) s = .fault (.unpredictable .ldmWbBaseInList) := by
  rw [exec_ldm h, blockStops_run hn (.inr (ne_zero_of_listed listed))]
  exact unpredIf_pos strict listed _ _

theorem ldmRet_wbBaseInList {list : BitVec 15} (strict : s.strict = true) (hn : rn ≠ 15)
    (listed : list.getLsbD rn.toNat = true) (h : Runs (.ldmRet c p u true rn list) s) :
    exec (.ldmRet c p u true rn list) s = .fault (.unpredictable .ldmWbBaseInList) := by
  have listed15 : (1#1 ++ list).getLsbD 15 = true := by
    rw [BitVec.getLsbD_append]
    rfl
  rw [exec_ldmRet h, blockStops_run hn (.inr (ne_zero_of_listed listed15))]
  exact unpredIf_pos strict listed _ _

theorem stm_wbBaseNotLowest {list : BitVec 16} (strict : s.strict = true) (hn : rn ≠ 15)
    (listed : list.getLsbD rn.toNat = true) (notLowest : (regList list).head? ≠ some rn) (h : Runs (.stm c p u true rn list) s) :
    exec (.stm c p u true rn list) s = .fault (.unpredictable .stmWbBaseNotLowest) := by
  rw [exec_stm h, blockStops_run hn (.inr (ne_zero_of_listed listed))]
  exact unpredIf_pos strict (baseNotLowest_iff.mpr ⟨listed, notLowest⟩) _ _

end

-- Thumb

section
variable {rb : LowReg} {list : BitVec 8} {s : State}

theorem thumb_empty (strict : s.strict = true) (marked : s.lastUsrBank = false) :
    ∀ i ∈ [.tPush false 0, .tPop false 0, .tStmia rb 0, .tLdmia rb 0], exec i s = .fault (.unpredictable .tEmptyList) := by
  simp only [List.mem_cons, List.not_mem_nil, or_false, forall_eq_or_imp, forall_eq]
  exact ⟨(exec_tPush false 0 (.inr marked)).trans (unpredIf_pos strict rfl _ _),
    (exec_tPop false 0 (.inr marked)).trans (unpredIf_pos strict rfl _ _),
    (exec_tStmia rb 0).trans (unpredIf_pos strict rfl _ _), (exec_tLdmia rb 0).trans (unpredIf_pos strict rfl _ _)⟩

theorem tStmia_baseNotLowest (strict : s.strict = true) (listed : list.getLsbD rb.toNat = true)
    (notLowest : (regList list).head? ≠ some (low rb)) :
    exec (.tStmia rb list) s = .fault (.unpredictable .stmWbBaseNotLowest) := by
  have nonempty : (regList list).isEmpty = false := by
    rw [Bool.eq_false_iff, Ne, regList_isEmpty (by decide)]
    exact ne_zero_of_listed listed
  rw [exec_tStmia, unpredIf_neg nonempty]
  exact unpredIf_pos strict (baseNotLowest_iff.mpr ⟨by rw [toNat_low]; exact listed, notLowest⟩) _ _

/-- A Thumb store stops where its write does. -/
theorem thumbStore_stop {stored : Except Fault State} {e : Fault} (h : stored = .error e) : thumbStore stored = .fault e :=
  orFault_error h _

end

/-- A swap stops where its store does. -/
theorem swap_stop {rn rd rm : Reg} {a v temp : Word} {w : Width} {s : State} {e : Fault} (noPc : 15 ∉ [rd, rm, rn])
    (apartRm : rn ≠ rm) (apartRd : rn ≠ rd) (h : cpuWrite a w v s = .error e) :
    swapStops rn rd rm (swapFinish a w v rd temp s) = .fault e := by
  unfold swapStops
  rw [stopIf_neg (by simpa using noPc), stopIf_neg (by simp [apartRm, apartRd])]
  exact orFault_error h _

/-- The halfword and signed transfers that a strict machine stops, by the accesses they run to. -/
theorem halves_exec_stop {a : Address} {p w : Bool} {rn rd : Reg} {s : State} {strh ldrh ldrsb ldrsh : Instr}
    (strict : s.strict = true) (wb : a.writeBack = true ↔ p = w) (runStrh : Runs strh s → exec strh s = storeHalf a rn rd s.begun)
    (runLdrh : Runs ldrh s → exec ldrh s = loadHalf a rn rd s.begun)
    (runLdrsb : Runs ldrsb s → exec ldrsb s = loadSignedByte a rn rd s.begun)
    (runLdrsh : Runs ldrsh s → exec ldrsh s = loadSignedHalf a rn rd s.begun) :
    (Runs strh s → rd = 15 → exec strh s = .fault (.unpredictable .strhPc)) ∧
    (rd ≠ 15 →
      (Runs strh s → a.addr.getLsbD 0 = true → exec strh s = .fault (.unpredictable .strhUnaligned)) ∧
      (Runs strh s → a.addr.getLsbD 0 = false → p = w → rn = rd → exec strh s = .fault (.unpredictable .strWbRd)) ∧
      (Runs ldrh s → a.addr.getLsbD 0 = true → exec ldrh s = .fault (.unpredictable .ldrhUnaligned)) ∧
      (Runs ldrh s → a.addr.getLsbD 0 = false → p = w → rn = rd → exec ldrh s = .fault (.unpredictable .ldrWbRd)) ∧
      (Runs ldrsb s → p = w → rn = rd → exec ldrsb s = .fault (.unpredictable .ldrWbRd)) ∧
      (Runs ldrsh s → a.addr.getLsbD 0 = true → exec ldrsh s = .fault (.unpredictable .ldrshUnaligned)) ∧
      (Runs ldrsh s → a.addr.getLsbD 0 = false → p = w → rn = rd → exec ldrsh s = .fault (.unpredictable .ldrWbRd))) := by
  rw [← wb]
  obtain ⟨pc, others⟩ := halves_stop (a := a) (rn := rn) (rd := rd) strict
  refine ⟨fun h hd => (runStrh h).trans (pc hd), fun hd => ?_⟩
  obtain ⟨strhOdd, strhWb, ldrhOdd, ldrhWb, ldrsbWb, ldrshOdd, ldrshWb⟩ := others hd
  exact ⟨fun h odd => (runStrh h).trans (strhOdd odd), fun h even back same => (runStrh h).trans (strhWb even back same),
    fun h odd => (runLdrh h).trans (ldrhOdd odd), fun h even back same => (runLdrh h).trans (ldrhWb even back same),
    fun h back same => (runLdrsb h).trans (ldrsbWb back same),
    fun h odd => (runLdrsh h).trans (ldrshOdd odd), fun h even back same => (runLdrsh h).trans (ldrshWb even back same)⟩

/-- Every Thumb store of a register stops where its write does. -/
theorem thumbStores_stop (s : State) (rb ro rd : LowReg) (off5 : BitVec 5) (word8 : BitVec 8) (e : Fault) :
    let v := s.x (low rd)
    let stops (i : Instr) (a : Word) (w : Width) := cpuWrite a w v s.begun = .error e → exec i s = .fault e
    stops (.tStrReg ro rb rd) (align4 (s.x (low rb) + s.x (low ro))) .word ∧
    stops (.tStrbReg ro rb rd) (s.x (low rb) + s.x (low ro)) .byte ∧
    ((s.strict = false ∨ (s.x (low rb) + s.x (low ro)).getLsbD 0 = false) →
      stops (.tStrhReg ro rb rd) (align2 (s.x (low rb) + s.x (low ro))) .half) ∧
    stops (.tStrImm off5 rb rd) (align4 (s.x (low rb) + off5.zeroExtend 32 * 4)) .word ∧
    stops (.tStrbImm off5 rb rd) (s.x (low rb) + off5.zeroExtend 32) .byte ∧
    ((s.strict = false ∨ (s.x (low rb) + off5.zeroExtend 32 * 2).getLsbD 0 = false) →
      stops (.tStrhImm off5 rb rd) (align2 (s.x (low rb) + off5.zeroExtend 32 * 2)) .half) ∧
    ((s.strict = false ∨ s.lastUsrBank = false) →
      stops (.tStrSp rd word8) (align4 (s.x 13 + word8.zeroExtend 32 * 4)) .word) := by
  rw [← scaled_two off5, ← scaled_one, ← scaled_two word8, ← scaled_zero]
  intro v stops
  refine ⟨fun h => ?_, fun h => ?_, fun free h => ?_, fun h => ?_, fun h => ?_, fun free h => ?_, fun free h => ?_⟩
  · exact (exec_tStrReg ro rb rd s).trans (thumbStore_stop h)
  · exact (exec_tStrbReg ro rb rd s).trans (thumbStore_stop h)
  · exact ((exec_tStrhReg ro rb rd s).trans ((unpredIf_cases s.begun _ _ _).1 free)).trans (thumbStore_stop h)
  · exact (exec_tStrImm rb rd off5 s).trans (thumbStore_stop h)
  · exact (exec_tStrbImm rb rd off5 s).trans (thumbStore_stop h)
  · exact ((exec_tStrhImm rb rd off5 s).trans ((unpredIf_cases s.begun _ _ _).1 free)).trans (thumbStore_stop h)
  · exact (exec_tStrSp rd word8 free).trans (thumbStore_stop h)

/-- Settles O31, group by group: the cases of a strict machine, what stops a store, and every instruction that stops where its
store does. -/
theorem strictStops : Obligations.StrictStops := by
  unfold Obligations.StrictStops
  refine ⟨fun s strict => ⟨?_, ?_, ?_, ?_, ?_, ?_, ?_⟩, fun a v w s => ⟨cpuWrite_prefetch, ?_, ?_, ?_⟩,
    fun c p u w rn rd s e => ⟨?_, ?_, ?_, ?_⟩, ?_, ?_⟩
  · intro op c sf sbz rn rd rs sh rm hs pc h
    rw [exec_dpRsr h, stopIf_neg (by simpa using hs)]
    exact unpredIf_pos strict (regShiftPc_iff.mpr pc) _ _
  · intro op c sf sbz rn rot imm8 amt sh rm i r hw h form
    rcases form with ⟨rfl, rfl⟩ | ⟨rfl, rfl⟩
    · rw [exec_dpImm h]
      refine ⟨fun hf unaligned => ?_, fun p q hf hp hq unaligned => ?_⟩
      · rw [hf]; exact dpFinish_jump_stop strict hw unaligned
      · rw [hf]; exact dpFinish_return_stop strict hw hp hq unaligned
    · rw [exec_dpRsi h]
      refine ⟨fun hf unaligned => ?_, fun p q hf hp hq unaligned => ?_⟩
      · rw [hf]; exact dpFinish_jump_stop strict hw unaligned
      · rw [hf]; exact dpFinish_return_stop strict hw hp hq unaligned
  · intro c p u w rd imm12 amt sh rm wb hd hm
    exact ⟨single_ldrWbRd c p u w rd rm imm12 amt sh strict wb hd hm, single_strWbRd c p u w rd rm imm12 amt sh strict wb hd hm⟩
  · intro c p u w rn rd immH immL sbz rm indexed base hm off imm hoff
    cases imm with
    | true =>
      obtain rfl : off = offsetHalf immH immL := hoff
      exact halves_exec_stop strict (addressOf_writeBack_half indexed) (halfImm_access indexed base · rfl rfl)
        (halfImm_access indexed base · rfl rfl) (halfImm_access indexed base · rfl rfl) (halfImm_access indexed base · rfl rfl)
    | false =>
      obtain rfl : off = s.x rm := hoff
      exact halves_exec_stop strict (addressOf_writeBack_half indexed) (halfReg_access indexed base hm · rfl rfl)
        (halfReg_access indexed base hm · rfl rfl) (halfReg_access indexed base hm · rfl rfl)
        (halfReg_access indexed base hm · rfl rfl)
  · intro c p u w rn list list15 hn
    exact ⟨block_empty strict hn, ldm_wbBaseInList strict hn, ldmRet_wbBaseInList strict hn, stm_wbBaseNotLowest strict hn⟩
  · intro rb list
    exact ⟨thumb_empty strict, tStmia_baseNotLowest strict⟩
  · intro ro rb rd off5
    refine ⟨fun odd => ?_, fun odd => ?_⟩
    · rw [exec_tStrhReg]
      exact unpredIf_pos strict odd _ _
    · rw [exec_tStrhImm]
      exact unpredIf_pos strict ((getLsbD_zero_add_scaled_one _ off5).trans odd) _ _
  · exact fun clear n touches armed field => cpuWrite_dmaCase clear touches armed field
  · intro single
    rw [hitsPrefetch_iff single]
    simp only [mem_prefetchWindow]
  · exact fun n noWrap => touchesDmaCtl_iff n noWrap
  · intro imm imm12 amt sh rm hm
    cases imm with
    | true =>
      intro a str strb hn free
      exact ⟨fun h stop => ((exec_strImm h).trans (addressStops_imm hn)).trans ((storeWord_run free).trans (orFault_error stop _)),
        fun h hd stop =>
          ((exec_strbImm h).trans (addressStops_imm hn)).trans ((storeByte_run hd free).trans (orFault_error stop _))⟩
    | false =>
      intro a str strb hn free
      exact ⟨fun h stop =>
          ((exec_strReg h).trans (addressStops_reg hn (hm rfl))).trans ((storeWord_run free).trans (orFault_error stop _)),
        fun h hd stop =>
          ((exec_strbReg h).trans (addressStops_reg hn (hm rfl))).trans ((storeByte_run hd free).trans (orFault_error stop _))⟩
  · intro imm immH immL sbz rm hm indexed
    cases imm with
    | true =>
      intro a strh hn free h stop
      exact ((halfImm_run h rfl rfl).trans ((halfStops_run indexed).trans (addressStops_imm hn))).trans
        ((storeHalf_run free).trans (orFault_error stop _))
    | false =>
      have offset : s.armX rm = s.x rm := if_neg (hm rfl)
      intro a strh hn free h stop
      have run := (halfReg_run (access := storeHalf) (p := p) (u := u) (w := w) (rn := rn) (rd := rd) (rm := rm) h rfl rfl).trans
        (halfStops_run indexed)
      rw [offset] at run
      exact (run.trans (addressStops_reg hn (hm rfl))).trans ((storeHalf_run free).trans (orFault_error stop _))
  · intro sbz rm noPc apartRm apartRd
    exact ⟨fun h stop => (exec_swp h).trans (swap_stop noPc apartRm apartRd stop),
      fun h stop => (exec_swpb h).trans (swap_stop noPc apartRm apartRd stop)⟩
  · intro list hn listed b moved
    exact ⟨fun h free stops => (exec_stm_run h hn listed free).trans (orFault_error (storeList_stop stops) _),
      fun h usr sys stops => (exec_stmUsr_run h hn listed usr sys).trans (orFault_error (storeList_stop stops) _)⟩
  · exact thumbStores_stop
  · intro s r rb list e regs other new
    refine ⟨fun free stops => ?_, fun free stops => ?_⟩
    · rw [exec_tPush_run r list free, thumbBlockSize_eq, thumbMoved_eq, storeList_stop stops]
      rfl
    · have empty {α : Type} (x y : α) : (if regList list = [] then x else y) = if list = 0 then x else y :=
        if_congr (regList_eq_nil (by decide) list) rfl rfl
      rw [exec_tStmia_run rb list free, thumbBlockSize_eq, thumbMoved_eq, empty, empty, storeList_stop stops]
      rfl

end Sys2Proof.Machine
